-- ==== Sys2Proof/Word.lean ====
section
/-! DEFINITION. The datum types of the block: a byte, and a byte string of a length the spec fixes
(spec/00_scope.md R7, R8: "every datum is a byte, a bit, a 5-value or 3-value enumeration, an i8, or a time in
milliseconds"). -/

namespace Sys2Proof

/-- A byte; bits numbered 7 (most significant) down to 0 (R8). -/
abbrev Byte := BitVec 8

/-- A byte string of fixed length, index 0 first (R8). -/
abbrev Bytes (n : Nat) := Vector Byte n

end Sys2Proof
end

