-- ==== Sys2Proof/Config.lean ====
section
/-! DEFINITION. What an implementation fixes: the parameters of spec/00_scope.md R6 and R7 and of
spec/92_eei_decisions.md section 1, the radio's address spaces (spec/20_memory.md R40), the named constants no rule
of the block reads, and the one free value of the model.

The parameters are one record of plain data, `Params`. State carries it (log entry 4), so that
a statement about every state is a statement about every choice of the parameters. -/

namespace Sys2Proof

/-! ## Pins (R7 (a), R13, R14) -/

/-- `BOUND : Pin → Bool` of R7 (a), one Boolean for each of the six pins. -/
structure Bound where
  pwr  : Bool
  ce   : Bool
  txen : Bool
  dr   : Bool
  am   : Bool
  cd   : Bool
  deriving DecidableEq, Repr

/-! ## The configuration read-back test (R7 (b), R112) -/

/-- `ValidateCfg : Byte^10 → Bool` of R7 (b), as data: a verdict for every ten-byte string, and the strings that get the
opposite verdict. Ten-byte strings are finitely many, so EVERY predicate on them has this form
(`Sys2Proof.Laws.cfgTest_expresses_every_predicate`): nothing is assumed of the test, which the spec leaves OPEN
(R112). -/
structure CfgTest where
  verdict : Bool
  except  : List (Bytes 10)
  deriving DecidableEq, Repr

/-! ## SPI command bytes (R7 (c), R70) -/

/-- The five SPI command bytes at start address 0 (R70). -/
structure SpiCodes where
  wConfig    : Byte
  rConfig    : Byte
  wTxPayload : Byte
  wTxAddress : Byte
  rRxPayload : Byte
  deriving DecidableEq, Repr

/-- The command bytes tell the five transactions apart ("a decoder tells the length from the command byte alone", R71),
the two CONFIG ones with any start address in their low four bits (R70: `0000 AAAA`, `0001 AAAA`). -/
def SpiCodes.wf (c : SpiCodes) : Bool :=
  c.wConfig &&& 0x0F#8 == 0#8 && c.rConfig &&& 0x0F#8 == 0#8 && c.wConfig != c.rConfig
    && [c.wTxPayload, c.wTxAddress, c.rRxPayload].all
      (fun b => b &&& 0xF0#8 != c.wConfig && b &&& 0xF0#8 != c.rConfig)
    && c.wTxPayload != c.wTxAddress && c.wTxPayload != c.rRxPayload && c.wTxAddress != c.rRxPayload

/-! ## The parameters -/

/-- The parameters of R6 and R7 (spec/92_eei_decisions.md section 1): those a rule of the block reads, and T_SCAN, which C3 of
spec/90_conflicts.md asks for beside T_REPLY. -/
structure Params where
  /-- `BOUND` (R7 (a)). -/
  bound        : Bound
  /-- `ValidateCfg` (R7 (b)). -/
  validate     : CfgTest
  /-- `CMD_*` (R7 (c)). -/
  spi          : SpiCodes
  /-- `ADDR_LSB_FIRST` (R7 (d), R44). -/
  addrLsbFirst : Bool
  /-- `T_REPLY`, in milliseconds (R6, R131). -/
  tReply       : Nat
  /-- `T_SCAN`, in milliseconds: "a host parameter which the block never reads" (R131). -/
  tScan        : Nat
  /-- `TX_FRAMES`, "count, at least 1" (spec/92_eei_decisions.md section 1; R121). -/
  txFrames     : Byte
  deriving DecidableEq, Repr

/-- What the spec asks of the parameters. -/
def Params.wf (p : Params) : Bool := 1 ≤ p.txFrames.toNat && p.spi.wf

/-- The defaults of spec/92_eei_decisions.md section 1. All six pins are bound and `ValidateCfg` is true of every string,
as the conventions of spec/95_test_vectors.md have it; the spec gives these two no default (log entry 4). -/
def Params.default : Params where
  bound        := { pwr := true, ce := true, txen := true, dr := true, am := true, cd := true }
  validate     := { verdict := true, except := [] }
  spi          := { wConfig := 0x00, rConfig := 0x10, wTxPayload := 0x20, wTxAddress := 0x22, rRxPayload := 0x24 }
  addrLsbFirst := true
  tReply       := 1000
  tScan        := 1000
  txFrames     := 4

/-! ## The radio's address spaces (R40) -/

/-- The four address spaces, "all inside the radio, all byte-addressed, all reached by SPI transactions" (R40). -/
inductive Space where
  | config
  | txAddr
  | txPl
  | rxPl
  deriving DecidableEq, Repr

/-! ## Constants no rule of the block reads (R6, R164, R222, R225) -/

namespace Config

/-- FRAME_LEN (R6). -/
def frameLen : Nat := 16
/-- PROTO_RETRIES, "used by the host only" (R6). -/
def protoRetries : Nat := 10
/-- TTL_DEFAULT, "used by the host only" (R6). -/
def ttlDefault : Byte := 250
/-- SPEED_COUNT, "host only" (R6, R164). -/
def speedCount : Nat := 4

/-- T_PWRUP, OPEN (R222): no rule of the block reads it. -/
opaque tPwrUp : Nat
/-- T_SETTLE, OPEN (R222): no rule of the block reads it. -/
opaque tSettle : Nat

/-- FREE VALUE (log entry 3): what the radio answers, in the read transaction before which OUT held `n` events, for the
byte at key `k` of its register spaces that nothing has given a value. The spec: "an n-byte string chosen by the
environment (the radio); the block places no constraint on it" (R41). Nothing constrains it. The index `n` restarts with a
reset in the course of a run (log entry 25). -/
opaque freeByte : (n k : Nat) → Byte

end Config

end Sys2Proof
end

