-- ==== Sys2Proof/Syntax.lean ====
section
/-! DEFINITION. The syntax, whole: the records the commands carry, the named codes of the wire frame, and `Instr`, one
constructor for each of the 22 rows of spec/opcode_table.json (six host commands, five SPI transactions, eleven frame
command codes). -/

namespace Sys2Proof

/-- RadioMode, "enumerated {PowerDown, Standby, Idle, Receive, Transmit}" (R11). -/
inductive Mode where
  | powerDown
  | standby
  | idle
  | receive
  | transmit
  deriving DecidableEq, Repr

/-- The Frame record (R139): six byte fields and ten opaque payload bytes. -/
structure Frame where
  dstType : Byte
  dstId   : Byte
  srcType : Byte
  srcId   : Byte
  ttl     : Byte
  command : Byte
  payload : Bytes 10
  deriving DecidableEq, Repr

/-- A frame less its command code: the operand of a FRAME row, whose code the row fixes (R61, R63). -/
structure FrameBody where
  dstType : Byte
  dstId   : Byte
  srcType : Byte
  srcId   : Byte
  ttl     : Byte
  payload : Bytes 10
  deriving DecidableEq, Repr

/-- RadioConfig, with the fields and widths of the table of R20. A one-bit field is a Bool, true for 1. -/
structure RadioConfig where
  /-- 0 = 433 MHz band, 1 = 868/915 MHz band. -/
  band         : Bool
  channel      : BitVec 9
  crcEn        : Bool
  /-- 0 = 8-bit, 1 = 16-bit. -/
  crc16        : Bool
  txPower      : BitVec 2
  rxReduced    : Bool
  rxAddr       : BitVec 32
  txAddr       : BitVec 32
  rxAddrWidth  : BitVec 3
  txAddrWidth  : BitVec 3
  payloadWidth : BitVec 6
  xtal         : BitVec 3
  clkOutEn     : Bool
  clkOutFreq   : BitVec 2
  deriving DecidableEq, Repr

/-- The command codes of R63. "Commands include": the list may be incomplete, and the codec carries any byte. -/
inductive FrameCommand where
  | setVoltage
  | setSpeed
  | setTimer
  | networkJoinRequest
  | setSpeedReply
  | networkJoinOpen
  | fanSettings
  | networkJoinAck
  | queryNetwork
  | queryDevice
  | setVoltageReply
  deriving DecidableEq, Repr

/-- The device types of R62. The codec carries any byte. -/
inductive DeviceType where
  | broadcast
  | mainUnit
  | remoteControl
  | co2Sensor
  deriving DecidableEq, Repr

/-- The speed presets of R64, used in payloads by the host. -/
inductive SpeedPreset where
  | auto
  | low
  | medium
  | high
  | max
  deriving DecidableEq, Repr

/-- The three formats of R60: which of the block's three faces a byte string stands at. The first byte alone does not
tell (0x00 is INIT and W_CONFIG), so a byte string comes with its face. -/
inductive Port where
  /-- HOSTCMD: a command of the host (R76). -/
  | host
  /-- SPI: one transaction on the bus (R71). -/
  | spi
  /-- FRAME: a 16-byte wire frame handed to the codec (R61). -/
  | frame
  deriving DecidableEq, Repr

/-- One constructor per row of spec/opcode_table.json. -/
inductive Instr where
  /-- INIT(cfg) (R110). -/
  | init (cfg : RadioConfig)
  /-- SETMODE(m) (R90). -/
  | setMode (m : Mode)
  /-- STARTTX(frame, budget) (R120); budget is an i8, two's complement. -/
  | startTx (frame : Frame) (budget : Byte)
  /-- POLL (R124). -/
  | poll
  /-- ENCODE(frame) (R140). -/
  | encodeFrame (frame : Frame)
  /-- DECODE(bytes) (R142). -/
  | decodeBytes (bytes : List Byte)
  /-- W_CONFIG (R102), with the start address AAAA of its command byte. -/
  | wConfig (a : BitVec 4) (img : Bytes 10)
  /-- R_CONFIG (R101), with the start address AAAA of its command byte. -/
  | rConfig (a : BitVec 4)
  /-- W_TX_PAYLOAD (R104). -/
  | wTxPayload (f : Bytes 16)
  /-- W_TX_ADDRESS (R103). -/
  | wTxAddress (addr : BitVec 32)
  /-- R_RX_PAYLOAD (R105). -/
  | rRxPayload
  /-- A wire frame with command 0x01 (R63). -/
  | frameSetVoltage (b : FrameBody)
  /-- A wire frame with command 0x02 (R63). -/
  | frameSetSpeed (b : FrameBody)
  /-- A wire frame with command 0x03 (R63). -/
  | frameSetTimer (b : FrameBody)
  /-- A wire frame with command 0x04 (R63). -/
  | frameNetworkJoinRequest (b : FrameBody)
  /-- A wire frame with command 0x05 (R63). -/
  | frameSetSpeedReply (b : FrameBody)
  /-- A wire frame with command 0x06 (R63). -/
  | frameNetworkJoinOpen (b : FrameBody)
  /-- A wire frame with command 0x07 (R63). -/
  | frameFanSettings (b : FrameBody)
  /-- A wire frame with command 0x0C (R63). -/
  | frameNetworkJoinAck (b : FrameBody)
  /-- A wire frame with command 0x0D (R63). -/
  | frameQueryNetwork (b : FrameBody)
  /-- A wire frame with command 0x10 (R63). -/
  | frameQueryDevice (b : FrameBody)
  /-- A wire frame with command 0x1D (R63). -/
  | frameSetVoltageReply (b : FrameBody)
  deriving DecidableEq, Repr

/-- The face an instruction stands at: the "format" column of spec/opcode_table.json. -/
def Instr.port : Instr → Port
  | .init _ | .setMode _ | .startTx _ _ | .poll | .encodeFrame _ | .decodeBytes _ => .host
  | .wConfig _ _ | .rConfig _ | .wTxPayload _ | .wTxAddress _ | .rRxPayload => .spi
  | .frameSetVoltage _ | .frameSetSpeed _ | .frameSetTimer _ | .frameNetworkJoinRequest _ | .frameSetSpeedReply _
  | .frameNetworkJoinOpen _ | .frameFanSettings _ | .frameNetworkJoinAck _ | .frameQueryNetwork _
  | .frameQueryDevice _ | .frameSetVoltageReply _ => .frame

end Sys2Proof
end

