-- ==== Sys2Proof/WellFormed.lean ====
section
/-! DEFINITION. Well-formedness: of a RadioConfig (`CfgWF` of spec/10_state.md R21) and of an instruction (it has a byte
string). -/

namespace Sys2Proof

/-- `CfgWF(cfg)` (R21), condition for condition; the one on the channel fails in no record, since `channel` has 9 bits. -/
def RadioConfig.wf (c : RadioConfig) : Bool :=
  c.payloadWidth == 16#6 && c.rxAddrWidth == 4#3 && c.txAddrWidth == 4#3 && c.channel.toNat ≤ 511 && c.xtal.toNat ≤ 4

/-- An instruction has an encoding: DECODE's operand has "any length n from 0 to 255" (R142), which its one length byte
can say (R76). Every other operand fills its field by its type. A RadioConfig that is not `CfgWF` has an encoding too:
it is INIT that turns it away (R116). -/
def Instr.wf : Instr → Bool
  | .decodeBytes bs => bs.length ≤ 255
  | _ => true

end Sys2Proof
end

