-- ==== Sys2Proof/Machine/Operands.lean ====
section
/-! DEFINITION. Operand forms: byte strings of fixed length, the numeric codes of modes, commands, device types and
presets, the frame codec (spec/44_frame_codec.md), the address bytes (R44), the configuration image and its inverse
(R72, R77), the signed budget (R77) and the read-back test (R112). Decode.lean and the meanings share them. -/

namespace Sys2Proof

/-! ## Byte strings of fixed length -/

/-- The first `n` values of `f`, as a string of length `n`. -/
def gather (n : Nat) (f : Nat → Byte) : Bytes n := ⟨⟨(List.range n).map f⟩, by simp⟩

/-- A list as a string of length `n`, if it has that length. -/
def exactly (n : Nat) (l : List Byte) : Option (Bytes n) := if h : l.length = n then some ⟨⟨l⟩, h⟩ else none

/-! ## Numeric codes -/

/-- Mode codes (R11). -/
def Mode.code : Mode → Byte
  | .powerDown => 0
  | .standby   => 1
  | .idle      => 2
  | .receive   => 3
  | .transmit  => 4

/-- "The mode code is the unsigned value of the operand byte; 5 to 255 select no mode" (R77). -/
def Mode.ofCode (b : Byte) : Option Mode :=
  match b.toNat with
  | 0 => some .powerDown
  | 1 => some .standby
  | 2 => some .idle
  | 3 => some .receive
  | 4 => some .transmit
  | _ => none

/-- Frame command codes (R63). -/
def FrameCommand.code : FrameCommand → Byte
  | .setVoltage         => 0x01
  | .setSpeed           => 0x02
  | .setTimer           => 0x03
  | .networkJoinRequest => 0x04
  | .setSpeedReply      => 0x05
  | .networkJoinOpen    => 0x06
  | .fanSettings        => 0x07
  | .networkJoinAck     => 0x0C
  | .queryNetwork       => 0x0D
  | .queryDevice        => 0x10
  | .setVoltageReply    => 0x1D

/-- The name of a command byte, where R63 lists one. -/
def FrameCommand.ofCode (b : Byte) : Option FrameCommand :=
  match b.toNat with
  | 0x01 => some .setVoltage
  | 0x02 => some .setSpeed
  | 0x03 => some .setTimer
  | 0x04 => some .networkJoinRequest
  | 0x05 => some .setSpeedReply
  | 0x06 => some .networkJoinOpen
  | 0x07 => some .fanSettings
  | 0x0C => some .networkJoinAck
  | 0x0D => some .queryNetwork
  | 0x10 => some .queryDevice
  | 0x1D => some .setVoltageReply
  | _ => none

/-- Device type codes (R62). -/
def DeviceType.code : DeviceType → Byte
  | .broadcast     => 0x00
  | .mainUnit      => 0x01
  | .remoteControl => 0x03
  | .co2Sensor     => 0x18

/-- Speed preset codes (R64). -/
def SpeedPreset.code : SpeedPreset → Byte
  | .auto   => 0
  | .low    => 1
  | .medium => 2
  | .high   => 3
  | .max    => 4

/-! ## The frame codec -/

/-- `Encode(f)` (R140): the six fields, then the payload (R61). -/
def Frame.encode (f : Frame) : Bytes 16 :=
  ⟨⟨[f.dstType, f.dstId, f.srcType, f.srcId, f.ttl, f.command] ++ f.payload.toList⟩, by simp⟩

/-- `Decode16(b)` (R143): "returns the raw fields unmodified". -/
def Frame.decode16 (b : Bytes 16) : Frame where
  dstType := b[0]
  dstId   := b[1]
  srcType := b[2]
  srcId   := b[3]
  ttl     := b[4]
  command := b[5]
  payload := ⟨⟨b.toList.drop 6⟩, by simp⟩

/-- The frame with this body and this command byte. -/
def FrameBody.withCommand (b : FrameBody) (c : Byte) : Frame where
  dstType := b.dstType
  dstId   := b.dstId
  srcType := b.srcType
  srcId   := b.srcId
  ttl     := b.ttl
  command := c
  payload := b.payload

/-- A frame less its command byte. -/
def Frame.body (f : Frame) : FrameBody where
  dstType := f.dstType
  dstId   := f.dstId
  srcType := f.srcType
  srcId   := f.srcId
  ttl     := f.ttl
  payload := f.payload

/-- The FRAME row of a command code, with a body. -/
def Instr.ofFrame : FrameCommand → FrameBody → Instr
  | .setVoltage, b         => .frameSetVoltage b
  | .setSpeed, b           => .frameSetSpeed b
  | .setTimer, b           => .frameSetTimer b
  | .networkJoinRequest, b => .frameNetworkJoinRequest b
  | .setSpeedReply, b      => .frameSetSpeedReply b
  | .networkJoinOpen, b    => .frameNetworkJoinOpen b
  | .fanSettings, b        => .frameFanSettings b
  | .networkJoinAck, b     => .frameNetworkJoinAck b
  | .queryNetwork, b       => .frameQueryNetwork b
  | .queryDevice, b        => .frameQueryDevice b
  | .setVoltageReply, b    => .frameSetVoltageReply b

/-! ## Addresses and the configuration image -/

/-- The fixed radio configuration of R6, "868 MHz band, channel 118, CRC enabled (16-bit), maximum transmit power, normal
receive power mode, 4-byte addresses, 16-byte payload, 16 MHz crystal, clock-output disabled", with the codes R20 gives its
words. The two addresses are the host's (R151): R6 names none. A host hands it to INIT; no rule asks that it be this
one. -/
def RadioConfig.fixed (rxAddr txAddr : BitVec 32) : RadioConfig where
  band         := true
  channel      := 118
  crcEn        := true
  crc16        := true
  txPower      := 3
  rxReduced    := false
  rxAddr       := rxAddr
  txAddr       := txAddr
  rxAddrWidth  := 4
  txAddrWidth  := 4
  payloadWidth := 16
  xtal         := 3
  clkOutEn     := false
  clkOutFreq   := 0

/-- `AddrBytes(a)` (R44); with ADDR_LSB_FIRST false "the four bytes are reversed". -/
def addrBytes (lsbFirst : Bool) (a : BitVec 32) : List Byte :=
  let bs := [a.extractLsb' 0 8, a.extractLsb' 8 8, a.extractLsb' 16 8, a.extractLsb' 24 8]
  if lsbFirst then bs else bs.reverse

/-- The address with these address bytes, the first of the string first. -/
def addrOf (lsbFirst : Bool) (b0 b1 b2 b3 : Byte) : BitVec 32 :=
  if lsbFirst then b3 ++ b2 ++ b1 ++ b0 else b0 ++ b1 ++ b2 ++ b3

/-- One bit of a byte, from a one-bit field. -/
def bit (b : Bool) : BitVec 1 := BitVec.ofBool b

/-- Bytes 0 to 4 and 9 of `Image(cfg)` (R72), the fields from bit 7 down as the table of R22 lists them; AUTO_RETRAN and
every unused bit are 0. -/
def RadioConfig.image0 (c : RadioConfig) : Byte := c.channel.extractLsb' 0 8
@[inherit_doc RadioConfig.image0] def RadioConfig.image1 (c : RadioConfig) : Byte :=
  0#3 ++ bit c.rxReduced ++ c.txPower ++ bit c.band ++ c.channel.extractLsb' 8 1
@[inherit_doc RadioConfig.image0] def RadioConfig.image2 (c : RadioConfig) : Byte :=
  0#1 ++ c.txAddrWidth ++ 0#1 ++ c.rxAddrWidth
@[inherit_doc RadioConfig.image0] def RadioConfig.image34 (c : RadioConfig) : Byte := 0#2 ++ c.payloadWidth
@[inherit_doc RadioConfig.image0] def RadioConfig.image9 (c : RadioConfig) : Byte :=
  bit c.crc16 ++ bit c.crcEn ++ c.xtal ++ bit c.clkOutEn ++ c.clkOutFreq

/-- `Image(cfg)` (R72), as a list. -/
def RadioConfig.imageList (lsbFirst : Bool) (c : RadioConfig) : List Byte :=
  [c.image0, c.image1, c.image2, c.image34, c.image34] ++ addrBytes lsbFirst c.rxAddr ++ [c.image9]

/-- `Image(cfg)` (R72): the ten bytes W_CONFIG carries. -/
def RadioConfig.image (lsbFirst : Bool) (c : RadioConfig) : Bytes 10 :=
  ⟨⟨c.imageList lsbFirst⟩, by cases lsbFirst <;> rfl⟩

/-- The INIT operand "decoded back into a RadioConfig by inverting rule R72" (R77). No record has an image with an unused
bit or AUTO_RETRAN set (R77), nor one whose RX_PW and TX_PW differ (log entry 10). -/
def RadioConfig.ofBytes (lsbFirst : Bool) : List Byte → Option RadioConfig
  | [b0, b1, b2, b3, b4, b5, b6, b7, b8, b9, t0, t1, t2, t3] =>
    if b1.extractLsb' 5 3 = 0#3 ∧ b2.extractLsb' 7 1 = 0#1 ∧ b2.extractLsb' 3 1 = 0#1
        ∧ b3.extractLsb' 6 2 = 0#2 ∧ b4 = b3 then
      some {
        band         := b1.getLsbD 1
        channel      := b1.extractLsb' 0 1 ++ b0
        crcEn        := b9.getLsbD 6
        crc16        := b9.getLsbD 7
        txPower      := b1.extractLsb' 2 2
        rxReduced    := b1.getLsbD 4
        rxAddr       := addrOf lsbFirst b5 b6 b7 b8
        txAddr       := addrOf lsbFirst t0 t1 t2 t3
        rxAddrWidth  := b2.extractLsb' 0 3
        txAddrWidth  := b2.extractLsb' 4 3
        payloadWidth := b3.extractLsb' 0 6
        xtal         := b9.extractLsb' 3 3
        clkOutEn     := b9.getLsbD 2
        clkOutFreq   := b9.extractLsb' 0 2 }
    else none
  | _ => none

/-! ## The budget and the read-back test -/

/-- "`budget >= 0` means a reply is expected, `budget < 0` means none is" (R123), of the byte read as i8 (R77). -/
def replyExpected (budget : Byte) : Bool := 0 ≤ budget.toInt

/-- `ValidateCfg` applied to the ten bytes read back (R112). -/
def CfgTest.accepts (t : CfgTest) (b : Bytes 10) : Bool := if b ∈ t.except then !t.verdict else t.verdict

/-- The three mandatory outputs are bound (R111). -/
def Bound.mandatory (b : Bound) : Bool := b.pwr && b.ce && b.txen

end Sys2Proof
end

