-- ==== Sys2Proof/Decode.lean ====
section
/-! DEFINITION. The decoder, total on any byte string at any face of the block, rejecting by name; the encoder; and
`decodeTableWord`. Sources: spec/30_encoding.md R60, R61, R70, R71, R76, R77, R79 and spec/opcode_table.json. -/

namespace Sys2Proof

/-- Why a byte string is no instruction. -/
inductive Reject where
  /-- No byte at all. -/
  | empty
  /-- "Opcodes 0x06 to 0xFF select no command" (R79). -/
  | noSuchOpcode (op : Byte)
  /-- The string is not as long as its opcode or command byte says (R71, R76, R79). -/
  | wrongLength (got : Nat)
  /-- "5 to 255 select no mode" (R77). -/
  | noSuchMode (code : Byte)
  /-- An INIT operand that "decodes to no RadioConfig" (R77). -/
  | noRadioConfig
  /-- "The block never issues any other SPI command" (R74). -/
  | noSuchTransaction (cmd : Byte)
  /-- A string at the frame face that is not 16 bytes long: "not a frame" (R66). That it is turned away here, without DECODE's
  BadLength, is the model's choice (see `decodeFrame`). -/
  | notAFrame (got : Nat)
  /-- A frame whose command code no row lists; the codec carries it all the same (R63, R66), and so does `step`. -/
  | unlistedFrame (f : Frame)
  deriving DecidableEq, Repr

/-! ## Decoding -/

/-- A command of `n` operand bytes that has another number of them. -/
def wrongLength (operands : List Byte) : Except Reject Instr := .error (.wrongLength (operands.length + 1))

/-- The operand of INIT: the image and the transmit address, 14 bytes (R76, R77). -/
def decodeInit (p : Params) (operands : List Byte) : Except Reject Instr :=
  if operands.length = 14 then
    match RadioConfig.ofBytes p.addrLsbFirst operands with
    | some cfg => .ok (.init cfg)
    | none => .error .noRadioConfig
  else wrongLength operands

/-- The operand of SETMODE: one mode code (R76, R77). -/
def decodeSetMode (operands : List Byte) : Except Reject Instr :=
  match operands with
  | [b] => match Mode.ofCode b with
    | some m => .ok (.setMode m)
    | none => .error (.noSuchMode b)
  | bs => wrongLength bs

/-- The operands of STARTTX: 16 frame bytes and the budget (R76, R77). -/
def decodeStartTx (operands : List Byte) : Except Reject Instr :=
  match exactly 16 (operands.take 16), operands.drop 16 with
  | some f, [budget] => .ok (.startTx (Frame.decode16 f) budget)
  | _, _ => wrongLength operands

/-- POLL has no operand (R76). -/
def decodePoll (operands : List Byte) : Except Reject Instr :=
  if operands.isEmpty then .ok .poll else wrongLength operands

/-- The operand of ENCODE: 16 bytes (R76). -/
def decodeEncode (operands : List Byte) : Except Reject Instr :=
  match exactly 16 operands with
  | some f => .ok (.encodeFrame (Frame.decode16 f))
  | none => wrongLength operands

/-- The operand of DECODE: a length byte n, then n bytes (R76). -/
def decodeDecode (operands : List Byte) : Except Reject Instr :=
  match operands with
  | [] => wrongLength []
  | n :: bs => if bs.length = n.toNat then .ok (.decodeBytes bs) else wrongLength (n :: bs)

/-- HOSTCMD (R76, R77, R79). -/
def decodeHost (p : Params) : List Byte → Except Reject Instr
  | [] => .error .empty
  | op :: operands =>
    if op = 0x00#8 then decodeInit p operands
    else if op = 0x01#8 then decodeSetMode operands
    else if op = 0x02#8 then decodeStartTx operands
    else if op = 0x03#8 then decodePoll operands
    else if op = 0x04#8 then decodeEncode operands
    else if op = 0x05#8 then decodeDecode operands
    else .error (.noSuchOpcode op)

/-- The start address AAAA of a CONFIG command byte (R70). -/
def startOf (cmd : Byte) : BitVec 4 := cmd.extractLsb' 0 4

/-- The data of W_CONFIG: 10 bytes (R47). -/
def decodeWConfig (cmd : Byte) (data : List Byte) : Except Reject Instr :=
  match exactly 10 data with
  | some img => .ok (.wConfig (startOf cmd) img)
  | none => wrongLength data

/-- R_CONFIG moves 10 bytes (R47); those towards the radio are "don't-care bytes" (R71). -/
def decodeRConfig (cmd : Byte) (data : List Byte) : Except Reject Instr :=
  if data.length = 10 then .ok (.rConfig (startOf cmd)) else wrongLength data

/-- The data of W_TX_PAYLOAD: 16 bytes (R47). -/
def decodeWTxPayload (data : List Byte) : Except Reject Instr :=
  match exactly 16 data with
  | some f => .ok (.wTxPayload f)
  | none => wrongLength data

/-- The data of W_TX_ADDRESS: 4 bytes (R47), the address in the order of R44. -/
def decodeWTxAddress (p : Params) (data : List Byte) : Except Reject Instr :=
  match data with
  | [b0, b1, b2, b3] => .ok (.wTxAddress (addrOf p.addrLsbFirst b0 b1 b2 b3))
  | bs => wrongLength bs

/-- R_RX_PAYLOAD moves 16 bytes (R47); those towards the radio are "don't-care bytes" (R71). -/
def decodeRRxPayload (data : List Byte) : Except Reject Instr :=
  if data.length = 16 then .ok .rRxPayload else wrongLength data

/-- SPI (R70, R71). -/
def decodeSpi (p : Params) : List Byte → Except Reject Instr
  | [] => .error .empty
  | cmd :: data =>
    if cmd &&& 0xF0#8 = p.spi.wConfig then decodeWConfig cmd data
    else if cmd &&& 0xF0#8 = p.spi.rConfig then decodeRConfig cmd data
    else if cmd = p.spi.wTxPayload then decodeWTxPayload data
    else if cmd = p.spi.wTxAddress then decodeWTxAddress p data
    else if cmd = p.spi.rRxPayload then decodeRRxPayload data
    else .error (.noSuchTransaction cmd)

/-- FRAME (R61, R63). DESIGN CHOICE (log entry 8): a string that is not 16 bytes long is rejected as `notAFrame`, so a
step refuses it and answers nothing. R66 says that it "is not a frame" and goes on "and DECODE answers BadLength", which
`execDecodeBytes` does for the string handed to DECODE at the host's face (R142); the spec has no frame face, and says
nothing of such a string there. Safe: a refusal. -/
def decodeFrame (bytes : List Byte) : Except Reject Instr :=
  match exactly 16 bytes with
  | none => .error (.notAFrame bytes.length)
  | some b => match FrameCommand.ofCode (Frame.decode16 b).command with
    | some c => .ok (.ofFrame c (Frame.decode16 b).body)
    | none => .error (.unlistedFrame (Frame.decode16 b))

/-- The instruction a byte string is at a face of the block. -/
def decode (p : Params) : Port → List Byte → Except Reject Instr
  | .host => decodeHost p
  | .spi => decodeSpi p
  | .frame => decodeFrame

/-! ## Encoding -/

/-- A CONFIG command byte with its start address: `0000 AAAA`, `0001 AAAA` (R70). -/
def withStart (code : Byte) (a : BitVec 4) : Byte := code ||| a.setWidth 8

/-- A wire frame with the command code of a row. -/
def frameBytes (c : FrameCommand) (b : FrameBody) : List Byte := (b.withCommand c.code).encode.toList

/-- The byte string of an instruction at its own face (R61, R71, R76). -/
def encode (p : Params) : Instr → List Byte
  | .init cfg => 0x00#8 :: ((cfg.image p.addrLsbFirst).toList ++ addrBytes p.addrLsbFirst cfg.txAddr)
  | .setMode m => [0x01#8, m.code]
  | .startTx f budget => 0x02#8 :: (f.encode.toList ++ [budget])
  | .poll => [0x03#8]
  | .encodeFrame f => 0x04#8 :: f.encode.toList
  | .decodeBytes bs => 0x05#8 :: BitVec.ofNat 8 bs.length :: bs
  | .wConfig a img => withStart p.spi.wConfig a :: img.toList
  | .rConfig a => withStart p.spi.rConfig a :: List.replicate 10 0#8
  | .wTxPayload f => p.spi.wTxPayload :: f.toList
  | .wTxAddress a => p.spi.wTxAddress :: addrBytes p.addrLsbFirst a
  | .rRxPayload => p.spi.rRxPayload :: List.replicate 16 0#8
  | .frameSetVoltage b => frameBytes .setVoltage b
  | .frameSetSpeed b => frameBytes .setSpeed b
  | .frameSetTimer b => frameBytes .setTimer b
  | .frameNetworkJoinRequest b => frameBytes .networkJoinRequest b
  | .frameSetSpeedReply b => frameBytes .setSpeedReply b
  | .frameNetworkJoinOpen b => frameBytes .networkJoinOpen b
  | .frameFanSettings b => frameBytes .fanSettings b
  | .frameNetworkJoinAck b => frameBytes .networkJoinAck b
  | .frameQueryNetwork b => frameBytes .queryNetwork b
  | .frameQueryDevice b => frameBytes .queryDevice b
  | .frameSetVoltageReply b => frameBytes .setVoltageReply b

/-! ## The opcode table's words

A word of the table names no face, and its first byte alone does not tell the rows apart (0x00 is INIT and W_CONFIG, 0x02
is STARTTX and FRAME.SetSpeed). So the word is offered to the faces in the order of the table, and the string that comes
to exactly the bits the table gives, if there is one, goes first (log entry 8). -/

/-- The `n` lowest bytes of a table word, bit 0 in the first byte. -/
def wordBytes (w n : Nat) : List Byte := (List.range n).map fun i => BitVec.ofNat 8 (w / 256 ^ i)

/-- How many bytes the host command with this word has ("a decoder tells the length of a command from its opcode byte,
and for DECODE from the opcode and the length byte", R79). -/
def hostLength (w : Nat) : Nat :=
  match w % 256 with
  | 0x00 => 15
  | 0x01 => 2
  | 0x02 => 18
  | 0x04 => 17
  | 0x05 => 2 + w / 256 % 256
  | _ => 1

/-- How many bytes the transaction with this command byte has (R70, R71). -/
def spiLength (p : Params) (w : Nat) : Nat :=
  let cmd := BitVec.ofNat 8 w
  if cmd &&& 0xF0#8 = p.spi.wConfig ∨ cmd &&& 0xF0#8 = p.spi.rConfig then 11
  else if cmd = p.spi.wTxAddress then 5
  else 17

/-- The block issues the transaction with this command byte: every one of the five starts at byte address 0 (R46, R70). -/
def startsAtZero (p : Params) (w : Nat) : Bool :=
  BitVec.ofNat 8 w ∈ [p.spi.wConfig, p.spi.rConfig, p.spi.wTxPayload, p.spi.wTxAddress, p.spi.rRxPayload]

/-- The byte strings a table word can stand for; a CONFIG transaction the block never issues comes last. The match of a
FRAME row "applies to byte 5 (command) of the 16-byte wire frame" (spec/opcode_table.json). -/
def tableCandidates (p : Params) (w : Nat) : List (Port × List Byte) :=
  let host := [(Port.host, wordBytes w (hostLength w))]
  let spi := [(Port.spi, wordBytes w (spiLength p w))]
  let frame := (Port.frame, wordBytes w 16)
    :: if w < 256 then [(Port.frame, List.replicate 5 0#8 ++ wordBytes w 1 ++ List.replicate 10 0#8)] else []
  if startsAtZero p w then host ++ spi ++ frame else host ++ frame ++ spi

/-- The string decodes to an instruction. -/
def decodes (p : Params) (c : Port × List Byte) : Bool :=
  match decode p c.1 c.2 with
  | .ok _ => true
  | .error _ => false

/-- The face and the byte string taken for a table word. -/
def tableSlot (p : Params) (nbits w : Nat) : Option (Port × List Byte) :=
  let cs := (tableCandidates p (w % 2 ^ nbits)).filter (decodes p)
  match cs.find? (fun c => c.2.length * 8 == nbits) with
  | some c => some c
  | none => cs.head?

/-- The instruction the decoder reads from a table word, with the default parameters. -/
def decodeTableWord (nbits w : Nat) : Option Instr :=
  match tableSlot Params.default nbits w with
  | none => none
  | some c => match decode Params.default c.1 c.2 with
    | .ok i => some i
    | .error _ => none

end Sys2Proof
end

