-- ==== Sys2Proof/Machine/Memory.lean ====
section
/-! DEFINITION. The radio's register spaces as memory (spec/20_memory.md R40): a list of cells in one canonical form,
keyed by one number for a space and a byte address in it. -/

namespace Sys2Proof

/-- Where a space begins among the keys. The spec gives each space its own addresses and no common numbering; the keys are
the model's (log entry 5). -/
def Space.base : Space → Nat
  | .config => 0x00
  | .txAddr => 0x10
  | .txPl   => 0x20
  | .rxPl   => 0x40

/-- The bytes of a space (R40; 32 for the payload registers from R23, R40). -/
def Space.size : Space → Nat
  | .config => 10
  | .txAddr => 4
  | .txPl   => 32
  | .rxPl   => 32

/-- The key of byte `a` of a space. -/
def Space.key (sp : Space) (a : Nat) : Nat := sp.base + a

/-- `n` bytes from address `a` lie inside the space. -/
def Space.holds (sp : Space) (a n : Nat) : Bool := a + n ≤ sp.size

/-- A key of this space. -/
def Space.owns (sp : Space) (k : Nat) : Bool := sp.base ≤ k && k < sp.base + sp.size

/-- A key of some space; no other address exists (R40, R49). -/
def mapped (k : Nat) : Bool := Space.config.owns k || Space.txAddr.owns k || Space.txPl.owns k || Space.rxPl.owns k

/-- What an unlisted address reads as: the radio's reset values of the table of R30 for CONFIG and TXADDR; no value for
TXPL and RXPL, "unspecified" there. -/
def unlisted (k : Nat) : Option Byte :=
  if k < 10 then ([0x6C, 0x00, 0x44, 0x20, 0x20, 0xE7, 0xE7, 0xE7, 0xE7, 0xE7] : List Byte)[k]?
  else if Space.txAddr.owns k then some 0xE7
  else none

/-- The cells that differ from what an unlisted address reads as. -/
abbrev Memory := List Host.Cell

namespace Memory

/-- The canonical form: addresses strictly rising, every address exists, no entry equal to what an unlisted address reads
as. -/
abbrev wf (m : Memory) : Prop :=
  m.Pairwise (fun c d => c.1 < d.1) ∧ ∀ c ∈ m, mapped c.1 = true ∧ unlisted c.1 ≠ some c.2

/-- The byte listed at a key. -/
def lookup : Memory → Nat → Option Byte
  | [], _ => none
  | c :: m, k => if c.1 = k then some c.2 else lookup m k

/-- The byte the radio holds at a key; none where it holds an unspecified byte. -/
def read (m : Memory) (k : Nat) : Option Byte :=
  match lookup m k with
  | some b => some b
  | none => unlisted k

/-- A cell put in its place, over the one that may stand there. -/
def insert : Memory → Nat → Byte → Memory
  | [], k, b => [(k, b)]
  | c :: m, k, b => if c.1 < k then c :: insert m k b else if c.1 = k then (k, b) :: m else (k, b) :: c :: m

/-- A key returned to what an unlisted address reads as. -/
def erase (m : Memory) (k : Nat) : Memory := m.filter (fun c => c.1 != k)

/-- One byte stored. -/
def write (m : Memory) (k : Nat) (b : Byte) : Memory := if unlisted k = some b then erase m k else insert m k b

/-- Bytes stored at a key and up, the first of the string at the lowest key. -/
def writeBytes (m : Memory) (k : Nat) : List Byte → Memory
  | [] => m
  | b :: bs => writeBytes (write m k b) (k + 1) bs

/-- `n` keys returned to what an unlisted address reads as. -/
def forget (m : Memory) (k n : Nat) : Memory := m.filter (fun c => !(k ≤ c.1 && c.1 < k + n))

/-- What the environment changes in the radio's registers between two commands; a cell whose address does not exist
changes nothing. -/
def radioWrites (m : Memory) : List Host.Cell → Memory
  | [] => m
  | c :: cs => radioWrites (if mapped c.1 then write m c.1 c.2 else m) cs

end Memory

end Sys2Proof
end

