-- ==== Sys2Proof/Machine/State.lean ====
section
/-! DEFINITION. The state of the block as plain data (spec/10_state.md), the reasons a step stops, and reset.
INVENTORY.md, under '## State', gives every field its width, its rule and its reset value. -/

namespace Sys2Proof.Machine

/-- LIFE in {Uninit, Ready, Failed} (R12). -/
inductive Life where
  | uninit
  | ready
  | failed
  deriving DecidableEq, Repr

/-- PEND in {None, TxBusy, RxWait} (R12). -/
inductive Pend where
  | none
  | txBusy
  | rxWait
  deriving DecidableEq, Repr

/-- The results of R78, R180. -/
inductive Result where
  | ok
  | missingPin
  | registerMismatch
  | busy
  | badLength
  deriving DecidableEq, Repr

/-- The events of R186. -/
inductive Event where
  | idle
  | transmitComplete
  | frameReceived (f : Frame)
  | receiveTimeout
  deriving DecidableEq, Repr

/-- What a command hands back to the host (R78); for a transaction, the bytes read. -/
inductive Response where
  /-- SETMODE "returns nothing" (R78); likewise a write transaction (R42). -/
  | nothing
  /-- A result byte: INIT, STARTTX, and DECODE's error. -/
  | result (r : Result)
  /-- POLL's event. -/
  | event (e : Event)
  /-- ENCODE's 16 bytes. -/
  | bytes (b : Bytes 16)
  /-- DECODE's Ok with the frame; likewise a wire frame the codec carries. -/
  | frame (f : Frame)
  /-- The bytes a read transaction returns (R41). -/
  | data (bs : List Byte)
  deriving DecidableEq, Repr

/-- An event of the output trace (R17); a level of an unbound pin, written `-` there, is none. -/
inductive OutEvent where
  | pins (pwr ce txen : Option Bool)
  | spiW (cmd : Byte) (data : List Byte)
  | spiR (cmd : Byte) (n : Nat) (data : List Byte)
  deriving DecidableEq, Repr

/-- One thing the outside hands to the block: a byte string at one of its faces, with the inputs "sampled once at the
start of a command" (R8) and what the radio's registers have become in the meantime (R41: read data is "chosen by the
environment"). -/
structure Slot where
  port  : Port
  bytes : List Byte
  /-- DR_in. -/
  dr    : Bool
  /-- AM_in. -/
  am    : Bool
  /-- CD_in. -/
  cd    : Bool
  /-- NOW, in milliseconds. -/
  now   : Nat
  /-- Cells of the radio's register spaces the radio has changed since the command before. -/
  radio : List Host.Cell
  deriving DecidableEq, Repr

/-- Why the machine stops with a fault. -/
inductive Fault where
  /-- W_CONFIG and R_CONFIG with a start address that carries the ten bytes past the end of CONFIG ("10 bytes, addresses 0
  to 9", R40; "every transaction starts at byte address 0 of its space", R46): an access to an address that does not
  exist. The block issues no such transaction (R70). Safe. -/
  | pastEndOfConfig (a : BitVec 4)
  deriving DecidableEq, Repr

/-- Why the machine gives no next state: the refusals of R182, "a model must refuse them: give no next state". All are
safe: a claim about what follows cannot be proved. -/
inductive Refusal where
  /-- Raised by `exec` for an instruction with no meaning yet; no arm raises it. Safe. -/
  | notModelled (mnemonic : String)
  /-- INIT when LIFE is not Uninit (R115). Safe. -/
  | initNotUninit
  /-- INIT with a RadioConfig that is not well-formed (R116). Safe. -/
  | initConfigNotWellFormed
  /-- STARTTX when LIFE is not Ready (R120). Safe. -/
  | startTxNotReady
  /-- POLL when LIFE is not Ready (R124). Safe. -/
  | pollNotReady
  /-- `step`, for a byte string that is no instruction: a mode code above 4, an opcode above 0x05 (R77, R79), a string of
  the wrong length, an SPI command byte the block never issues (R74). Safe. -/
  | notACommand (why : Reject)
  deriving DecidableEq, Repr

/-- Everything the spec gives the block, the inputs as last sampled, the radio's register spaces, and what the model adds
(`params`, `inbox`, `ret`; log entries 4, 6, 7). -/
structure State where
  /-- The parameters of R6 and R7; no step changes them. -/
  params   : Params
  /-- LIFE (R12). -/
  life     : Life
  /-- PEND (R12). -/
  pend     : Pend
  /-- MODE (R11). -/
  mode     : Mode
  /-- The output PWR (R13). -/
  pwr      : Bool
  /-- The output CE (R13). -/
  ce       : Bool
  /-- The output TXEN (R13). -/
  txen     : Bool
  /-- CFG (R20). -/
  cfg      : RadioConfig
  /-- TXBUF (R10). -/
  txbuf    : Bytes 16
  /-- BUDGET, an i8 in two's complement (R10). -/
  budget   : Byte
  /-- RETX, unsigned (R10). -/
  retx     : Byte
  /-- DEADLINE, in milliseconds (R10). -/
  deadline : Nat
  /-- OUT, oldest event first (R17). -/
  out      : List OutEvent
  /-- The radio's CONFIG, TXADDR, TXPL and RXPL (R22, R23, R40). -/
  mem      : Memory
  /-- DR_in as sampled for the command at hand (R14). -/
  drIn     : Bool
  /-- AM_in as sampled (R14); no rule reads it. -/
  amIn     : Bool
  /-- CD_in as sampled (R14); no rule reads it. -/
  cdIn     : Bool
  /-- NOW as sampled (R15). -/
  now      : Nat
  /-- What the outside hands to the block, the next first. -/
  inbox    : List Slot
  /-- What the last command handed back. -/
  ret      : Response
  deriving DecidableEq, Repr

/-- A RadioConfig with every field 0: what CFG holds before INIT writes it (log entry 1). -/
def zeroConfig : RadioConfig where
  band := false
  channel := 0
  crcEn := false
  crc16 := false
  txPower := 0
  rxReduced := false
  rxAddr := 0
  txAddr := 0
  rxAddrWidth := 0
  txAddrWidth := 0
  payloadWidth := 0
  xtal := 0
  clkOutEn := false
  clkOutFreq := 0

/-- "The creation of a block instance (power-on of the block)" (R210) with given parameters, beside a radio whose registers
hold `radio`: the table of R30, the registers it leaves unspecified at 0 (log entry 1), the inputs low and the time 0 (log
entry 2). "Reset of the block does not reset the radio: the radio's registers hold whatever they held" (R210). -/
def State.create (p : Params) (radio : Memory) : State where
  params := p
  life := .uninit
  pend := .none
  mode := .powerDown
  pwr := false
  ce := false
  txen := false
  cfg := zeroConfig
  txbuf := Vector.replicate 16 0
  budget := 0
  retx := 0
  deadline := 0
  out := []
  mem := radio
  drIn := false
  amIn := false
  cdIn := false
  now := 0
  inbox := []
  ret := .nothing

/-- The creation of a block instance beside a radio that was just powered on as well, the one radio whose registers R30 gives
values for (log entry 15). -/
def State.powerOn (p : Params) : State := State.create p []

/-- The block right after reset, with the default parameters, beside a radio just powered on. `State.resetBlock` is the reset
of a block whose radio stays powered. -/
def State.reset : State := State.powerOn Params.default

end Sys2Proof.Machine
end

