-- ==== Sys2Proof/Machine/Flags.lean ====
section
/-! DEFINITION. "The block has no condition-code or flag register that one command sets and a later one tests" (R16). What
plays their part: the pin table (R91), the tests the commands make (R122, R124 to R128, R133), and the codes of results
and events (R78). -/

namespace Sys2Proof.Machine

/-! ## The pin table -/

/-- The PWR column of R91. -/
def pinPwr : Mode → Bool
  | .powerDown => false
  | .standby   => true
  | .idle      => true
  | .receive   => true
  | .transmit  => true

/-- The CE column of R91. -/
def pinCe : Mode → Bool
  | .powerDown => false
  | .standby   => false
  | .idle      => false
  | .receive   => true
  | .transmit  => true

/-- The TXEN column of R91. -/
def pinTxen : Mode → Bool
  | .powerDown => false
  | .standby   => false
  | .idle      => false
  | .receive   => false
  | .transmit  => true

/-! ## The tests -/

/-- The busy test of STARTTX, `PEND != None` (R122). -/
def State.busy (s : State) : Bool := s.pend != .none

/-- "`dr` = DR_in if BOUND(DR) else 0" (R124). -/
def State.dr (s : State) : Bool := s.params.bound.dr && s.drIn

/-- `RETX - 1`, unsigned 8 bits (R133). -/
def State.retxLess (s : State) : Byte := s.retx - 1

/-- `RETX > 0` after the decrement (R124, R125). -/
def State.repeatsRemain (s : State) : Bool := 0 < s.retxLess.toNat

/-- `now >= DEADLINE` on natural numbers (R128, R131). -/
def State.deadlineReached (s : State) : Bool := s.deadline ≤ s.now

/-! ## Codes -/

/-- Result codes (R78, R180). -/
def Result.code : Result → Byte
  | .ok               => 0
  | .missingPin       => 1
  | .registerMismatch => 2
  | .busy             => 3
  | .badLength        => 4

/-- The result is an error (R180). -/
def Result.isError : Result → Bool
  | .ok               => false
  | .missingPin       => true
  | .registerMismatch => true
  | .busy             => true
  | .badLength        => true

/-- Event codes, "Ev.FrameReceived = 2 (followed by the 16 frame bytes)" (R78, R186). -/
def Event.bytes : Event → List Byte
  | .idle             => [0]
  | .transmitComplete => [1]
  | .frameReceived f  => 2 :: f.encode.toList
  | .receiveTimeout   => [3]

/-- The bytes of a response in the host's envelope (R78). -/
def Response.wire : Response → List Byte
  | .nothing  => []
  | .result r => [r.code]
  | .event e  => e.bytes
  | .bytes b  => b.toList
  | .frame f  => Result.ok.code :: f.encode.toList
  | .data bs  => bs

/-- The bytes an output event puts on the bus from the block's side (R71): the command byte, then the data of a write, or
the 0x00 bytes the block sends while it reads. -/
def OutEvent.busBytes : OutEvent → List Byte
  | .pins _ _ _      => []
  | .spiW cmd data   => cmd :: data
  | .spiR cmd n _    => cmd :: List.replicate n 0#8

end Sys2Proof.Machine
end

