-- ==== Sys2Proof/Machine/Ops.lean ====
section
/-! DEFINITION. The operations the meanings share: sampling the inputs, answering the host, an error result (what stands in
for taking an exception), driving the pins, the two access primitives of spec/20_memory.md, and the five transactions
of spec/41_spi_transactions.md. And reset, which is no command. -/

namespace Sys2Proof.Machine

/-- A next state. -/
abbrev Step := Host.Outcome State Fault Refusal

/-! ## Inputs and answers -/

/-- The inputs "sampled once at the start of a command" (R8), the radio's registers as they have become, and the slot
taken from the inbox. -/
def State.sample (c : Slot) (rest : List Slot) (s : State) : State :=
  { s with
    drIn := c.dr
    amIn := c.am
    cdIn := c.cd
    now := c.now
    mem := s.mem.radioWrites c.radio
    inbox := rest }

/-- `return r` (R8). -/
def State.respond (r : Response) (s : State) : State := { s with ret := r }

/-- `raise E`: "`return Err(E)` after the state changes the rule lists and no others" (R8). This is the whole of what the
block has in place of taking an exception: "Nothing is saved anywhere: there is no cause register, no saved state, no
vector, no handler and no mode switch" (R190), and "there is no return instruction" (R191). -/
def State.raise (e : Result) (s : State) : State := s.respond (.result e)

/-- `emit e` (R8). -/
def State.emit (e : OutEvent) (s : State) : State := { s with out := s.out ++ [e] }

/-! ## Reset -/

/-- Reset in the course of a run (R210): a block instance is created anew, and nothing of the old one survives; the radio's
registers "hold whatever they held". The parameters stay, and so does what lies outside the block: the levels of the inputs,
the time and what is still to come. Reset is "the only way out of LIFE = Failed or LIFE = Ready" and "not a command: the
host cannot ask for it", so no step does it (log entry 25). DESIGN CHOICE (log entry 25): OUT is empty again, so the index of
`Config.freeByte` restarts, and a byte of the radio with no known value reads as it did before the reset when OUT had the
same length; the spec leaves such a byte open at every read (R41). Unsafe for a claim that compares two such reads. -/
def State.resetBlock (s : State) : State :=
  { State.create s.params s.mem with
    drIn := s.drIn
    amIn := s.amIn
    cdIn := s.cdIn
    now := s.now
    inbox := s.inbox }

/-! ## The pins -/

/-- The level of a pin after a write of `v`, over the level `old`: "an output pin that is not bound is skipped" (R94). -/
def driven (bound v old : Bool) : Bool := if bound then v else old

/-- The level of a pin as a Pins event shows it, none for an unbound one (R17, R94). -/
def shown (bound v : Bool) : Option Bool := if bound then some v else none

/-- The Pins event of a SETMODE(m) (R17, R90). -/
def State.pinsEvent (m : Mode) (s : State) : OutEvent :=
  .pins (shown s.params.bound.pwr (pinPwr m)) (shown s.params.bound.ce (pinCe m))
    (shown s.params.bound.txen (pinTxen m))

/-- What SETMODE(m) does, as the host's command and inside INIT, STARTTX and POLL (R11, R90). -/
def State.applyMode (m : Mode) (s : State) : State :=
  { s with
    mode := m
    pwr := driven s.params.bound.pwr (pinPwr m) s.pwr
    ce := driven s.params.bound.ce (pinCe m) s.ce
    txen := driven s.params.bound.txen (pinTxen m) s.txen }.emit (s.pinsEvent m)

/-! ## The access primitives -/

/-- The byte the radio answers for a key: what it holds (R50), or a free value where that is unspecified (R41, log entry
3). -/
def State.radioByte (s : State) (k : Nat) : Byte := (s.mem.read k).getD (Config.freeByte s.out.length k)

/-- The `n` bytes the radio answers from byte `a` of a space. -/
def State.answer (s : State) (sp : Space) (a n : Nat) : Bytes n := gather n fun i => s.radioByte (sp.key a + i)

/-- The radio's registers after `n` bytes from `a` have been read. Reading RXPL is not idempotent: "a second read returns
unspecified bytes" (R48), so they hold no known value after it (log entry 9). Reading CONFIG has no side effect (R48). -/
def State.memAfterRead (s : State) (sp : Space) (a n : Nat) : Memory :=
  match sp with
  | .rxPl => s.mem.forget (sp.key a) n
  | .config | .txAddr | .txPl => s.mem

/-- `MemRead(space, addr, n)`, the state after it (R41); the data is `State.answer` of the state before. -/
def State.memRead (cmd : Byte) (sp : Space) (a n : Nat) (s : State) : State :=
  { s with mem := s.memAfterRead sp a n }.emit (.spiR cmd n (s.answer sp a n).toList)

/-- `MemWrite(space, addr, n, v)` (R42). -/
def State.memWrite (cmd : Byte) (sp : Space) (a : Nat) (v : List Byte) (s : State) : State :=
  { s with mem := s.mem.writeBytes (sp.key a) v }.emit (.spiW cmd v)

/-! ## The five transactions -/

/-- What the radio answers to R_CONFIG (R101). -/
def State.configAnswer (s : State) (a : Nat) : Bytes 10 := s.answer .config a 10

/-- R_CONFIG, the state after it (R101). -/
def State.readConfig (a : BitVec 4) (s : State) : State :=
  s.memRead (withStart s.params.spi.rConfig a) .config a.toNat 10

/-- W_CONFIG (R102). -/
def State.writeConfig (a : BitVec 4) (img : Bytes 10) (s : State) : State :=
  s.memWrite (withStart s.params.spi.wConfig a) .config a.toNat img.toList

/-- W_TX_ADDRESS (R103). -/
def State.writeTxAddress (addr : BitVec 32) (s : State) : State :=
  s.memWrite s.params.spi.wTxAddress .txAddr 0 (addrBytes s.params.addrLsbFirst addr)

/-- W_TX_PAYLOAD (R104). -/
def State.writeTxPayload (f : Bytes 16) (s : State) : State :=
  s.memWrite s.params.spi.wTxPayload .txPl 0 f.toList

/-- What the radio answers to R_RX_PAYLOAD (R105). -/
def State.rxAnswer (s : State) : Bytes 16 := s.answer .rxPl 0 16

/-- R_RX_PAYLOAD, the state after it (R105). -/
def State.readRxPayload (s : State) : State := s.memRead s.params.spi.rRxPayload .rxPl 0 16

end Sys2Proof.Machine
end

