-- ==== Sys2Proof/Machine/Codec.lean ====
section
/-! DEFINITION. ENCODE and DECODE (spec/44_frame_codec.md): "Pure functions ... No side effects", accepted in every state. -/

namespace Sys2Proof.Machine

/-- ENCODE(frame) (R140); it checks nothing (R141). -/
def execEncodeFrame (frame : Frame) (s : State) : Step := .next (s.respond (.bytes frame.encode))

/-- DECODE(bytes) (R142). -/
def execDecodeBytes (bytes : List Byte) (s : State) : Step :=
  match exactly 16 bytes with
  | none => .next (s.raise .badLength)
  | some b => .next (s.respond (.frame (Frame.decode16 b)))

end Sys2Proof.Machine
end

