-- ==== Sys2Proof/Machine/Frames.lean ====
section
/-! DEFINITION. The FRAME rows: a wire frame handed to the codec. The block gives a frame's command code no meaning of its
own: "The codec does not interpret or check the command field; any byte value is carried" (R63), "every 16-byte string
is a frame" (R66). What the codec does with a frame is Decode16 (R143): it hands back the raw fields (log entry 8). -/

namespace Sys2Proof.Machine

/-- The codec carries a wire frame: its fields come back unmodified, and no register is read or written (R142, R143). -/
def State.carry (f : Frame) (s : State) : State := s.respond (.frame (Frame.decode16 f.encode))

/-- FRAME.SetVoltage (R63: command 0x01). -/
def execFrameSetVoltage (b : FrameBody) (s : State) : Step := .next (s.carry (b.withCommand FrameCommand.setVoltage.code))

/-- FRAME.SetSpeed (R63: command 0x02). -/
def execFrameSetSpeed (b : FrameBody) (s : State) : Step := .next (s.carry (b.withCommand FrameCommand.setSpeed.code))

/-- FRAME.SetTimer (R63: command 0x03). -/
def execFrameSetTimer (b : FrameBody) (s : State) : Step := .next (s.carry (b.withCommand FrameCommand.setTimer.code))

/-- FRAME.NetworkJoinRequest (R63: command 0x04). -/
def execFrameNetworkJoinRequest (b : FrameBody) (s : State) : Step := .next (s.carry (b.withCommand FrameCommand.networkJoinRequest.code))

/-- FRAME.SetSpeedReply (R63: command 0x05). -/
def execFrameSetSpeedReply (b : FrameBody) (s : State) : Step := .next (s.carry (b.withCommand FrameCommand.setSpeedReply.code))

/-- FRAME.NetworkJoinOpen (R63: command 0x06). -/
def execFrameNetworkJoinOpen (b : FrameBody) (s : State) : Step := .next (s.carry (b.withCommand FrameCommand.networkJoinOpen.code))

/-- FRAME.FanSettings (R63: command 0x07). -/
def execFrameFanSettings (b : FrameBody) (s : State) : Step := .next (s.carry (b.withCommand FrameCommand.fanSettings.code))

/-- FRAME.NetworkJoinAck (R63: command 0x0c). -/
def execFrameNetworkJoinAck (b : FrameBody) (s : State) : Step := .next (s.carry (b.withCommand FrameCommand.networkJoinAck.code))

/-- FRAME.QueryNetwork (R63: command 0x0d). -/
def execFrameQueryNetwork (b : FrameBody) (s : State) : Step := .next (s.carry (b.withCommand FrameCommand.queryNetwork.code))

/-- FRAME.QueryDevice (R63: command 0x10). -/
def execFrameQueryDevice (b : FrameBody) (s : State) : Step := .next (s.carry (b.withCommand FrameCommand.queryDevice.code))

/-- FRAME.SetVoltageReply (R63: command 0x1d). -/
def execFrameSetVoltageReply (b : FrameBody) (s : State) : Step := .next (s.carry (b.withCommand FrameCommand.setVoltageReply.code))

/-- A wire frame whose command code no row lists: "any byte value is carried" (R63). -/
def carryUnlisted (f : Frame) (s : State) : Step := .next (s.carry f)

end Sys2Proof.Machine
end

