-- ==== Sys2Proof/Machine/Init.lean ====
section
/-! DEFINITION. INIT (spec/42_init.md). -/

namespace Sys2Proof.Machine

/-- INIT up to the read-back: "force PowerDown, read back configuration registers" (R110, R113). -/
def State.initReadBack (s : State) : State := (s.applyMode .powerDown).readConfig 0

/-- The ten bytes INIT reads back (R110). -/
def State.initAnswer (s : State) : Bytes 10 := (s.applyMode .powerDown).configAnswer 0

/-- INIT after a read-back that passes: "write the working configuration, write the fixed transmit network address,
transition to Idle" (R110). -/
def State.initFinish (cfg : RadioConfig) (s : State) : State :=
  let s := s.writeConfig 0 (cfg.image s.params.addrLsbFirst)
  let s := s.writeTxAddress cfg.txAddr
  let s := s.applyMode .idle
  { s with cfg := cfg, pend := .none, life := .ready }.respond (.result .ok)

/-- An INIT that ends in an error: LIFE becomes Failed (R111, R112). -/
def State.initFail (e : Result) (s : State) : State := { s with life := .failed }.raise e

/-- INIT(cfg) (R110), its tests in the order of R189. -/
def execInit (cfg : RadioConfig) (s : State) : Step :=
  if s.life ≠ .uninit then .refused .initNotUninit
  else if cfg.wf = false then .refused .initConfigNotWellFormed
  else if s.params.bound.mandatory = false then .next (s.initFail .missingPin)
  else if s.params.validate.accepts s.initAnswer = false then .next (s.initReadBack.initFail .registerMismatch)
  else .next (s.initReadBack.initFinish cfg)

end Sys2Proof.Machine
end

