-- ==== Sys2Proof/Machine/ModeControl.lean ====
section
/-! DEFINITION. SETMODE (spec/40_mode_control.md). -/

namespace Sys2Proof.Machine

/-- SETMODE(m) (R90): no error in any state, no result value; accepted in every value of LIFE (R95) and of PEND (R96). -/
def execSetMode (m : Mode) (s : State) : Step := .next ((s.applyMode m).respond .nothing)

end Sys2Proof.Machine
end

