-- ==== Sys2Proof/Machine/Spi.lean ====
section
/-! DEFINITION. The five SPI transactions, each as one step of its own (spec/41_spi_transactions.md; log entry 8). INIT,
STARTTX and POLL issue them through the operations of Ops.lean. -/

namespace Sys2Proof.Machine

/-- W_CONFIG (R102), at the start address of its command byte (R42). -/
def execWConfig (a : BitVec 4) (img : Bytes 10) (s : State) : Step :=
  if Space.config.holds a.toNat 10 then .next ((s.writeConfig a img).respond .nothing) else .fault (.pastEndOfConfig a)

/-- R_CONFIG (R101), at the start address of its command byte (R41). -/
def execRConfig (a : BitVec 4) (s : State) : Step :=
  if Space.config.holds a.toNat 10 then
    .next ((s.readConfig a).respond (.data (s.configAnswer a.toNat).toList))
  else .fault (.pastEndOfConfig a)

/-- W_TX_PAYLOAD (R104). -/
def execWTxPayload (f : Bytes 16) (s : State) : Step := .next ((s.writeTxPayload f).respond .nothing)

/-- W_TX_ADDRESS (R103). -/
def execWTxAddress (addr : BitVec 32) (s : State) : Step := .next ((s.writeTxAddress addr).respond .nothing)

/-- R_RX_PAYLOAD (R105). -/
def execRRxPayload (s : State) : Step := .next (s.readRxPayload.respond (.data s.rxAnswer.toList))

end Sys2Proof.Machine
end

