-- ==== Sys2Proof/Machine/TransmitReceive.lean ====
section
/-! DEFINITION. STARTTX and POLL (spec/43_transmit_receive.md), POLL arm by arm. -/

namespace Sys2Proof.Machine

/-! ## STARTTX -/

/-- "if MODE != Idle then SETMODE(Idle)" (R121). -/
def State.throughIdle (s : State) : State := if s.mode = .idle then s else s.applyMode .idle

/-- The effect of an accepted STARTTX (R121). -/
def State.startTransmit (frame : Frame) (budget : Byte) (s : State) : State :=
  let s := { s with txbuf := frame.encode, budget := budget, retx := s.params.txFrames }
  let s := s.throughIdle
  let s := s.writeTxPayload s.txbuf
  let s := s.applyMode .transmit
  { s with pend := .txBusy }.respond (.result .ok)

/-- STARTTX(frame, budget) (R121, R122), its tests in the order of R189. -/
def execStartTx (frame : Frame) (budget : Byte) (s : State) : Step :=
  if s.life ≠ .ready then .refused .startTxNotReady
  else if s.busy then .next (s.raise .busy)
  else .next (s.startTransmit frame budget)

/-! ## POLL -/

/-- Arms T0, W0 and N0: "return Ev.Idle and change nothing" (R130). -/
def State.pollIdle (s : State) : State := s.respond (.event .idle)

/-- Arm T1 (R125). -/
def State.pollRepeat (s : State) : State :=
  let s := { s with retx := s.retxLess }
  ((s.applyMode .idle).applyMode .transmit).respond (.event .idle)

/-- Arm T2 (R126). -/
def State.pollTurnAround (s : State) : State :=
  let s := { s with retx := s.retxLess }
  let s := s.applyMode .receive
  { s with deadline := s.now + s.params.tReply, pend := .rxWait }.respond (.event .transmitComplete)

/-- Arm T3 (R126). -/
def State.pollDone (s : State) : State :=
  let s := { s with retx := s.retxLess }
  let s := s.applyMode .idle
  { s with pend := .none }.respond (.event .transmitComplete)

/-- Arm W1 (R127). -/
def State.pollReply (s : State) : State :=
  { s.readRxPayload with pend := .none }.respond (.event (.frameReceived (Frame.decode16 s.rxAnswer)))

/-- Arm W2 (R128). -/
def State.pollTimeout (s : State) : State := { s with pend := .none }.respond (.event .receiveTimeout)

/-- Arm N1 (R129). -/
def State.pollUnsolicited (s : State) : State :=
  s.readRxPayload.respond (.event (.frameReceived (Frame.decode16 s.rxAnswer)))

/-- POLL while a transmission is pending: arms T0 to T3 (R124). -/
def State.pollTxBusy (s : State) : State :=
  if s.dr = false then s.pollIdle
  else if s.repeatsRemain then s.pollRepeat
  else if replyExpected s.budget then s.pollTurnAround
  else s.pollDone

/-- POLL in the reply wait: arms W0 to W2, a frame before the timeout (R124, R189). -/
def State.pollRxWait (s : State) : State :=
  if s.dr then s.pollReply
  else if s.deadlineReached then s.pollTimeout
  else s.pollIdle

/-- POLL with nothing pending: arms N0 and N1 (R124). -/
def State.pollNone (s : State) : State := if s.mode = .receive ∧ s.dr = true then s.pollUnsolicited else s.pollIdle

/-- POLL (R124). -/
def execPoll (s : State) : Step :=
  if s.life ≠ .ready then .refused .pollNotReady
  else match s.pend with
    | .txBusy => .next s.pollTxBusy
    | .rxWait => .next s.pollRxWait
    | .none => .next s.pollNone

end Sys2Proof.Machine
end

