-- ==== Sys2Proof/Machine/Dispatch.lean ====
section
/-! DEFINITION. One arm per row of spec/opcode_table.json, each a call of that instruction's meaning. -/

namespace Sys2Proof.Machine

def exec (i : Instr) (s : State) : Host.Outcome State Fault Refusal :=
  match i with
  -- host commands
  | .init cfg => Sys2Proof.Machine.execInit cfg s
  | .setMode m => Sys2Proof.Machine.execSetMode m s
  | .startTx frame budget => Sys2Proof.Machine.execStartTx frame budget s
  | .poll => Sys2Proof.Machine.execPoll s
  | .encodeFrame frame => Sys2Proof.Machine.execEncodeFrame frame s
  | .decodeBytes bytes => Sys2Proof.Machine.execDecodeBytes bytes s
  -- SPI transactions
  | .wConfig a img => Sys2Proof.Machine.execWConfig a img s
  | .rConfig a => Sys2Proof.Machine.execRConfig a s
  | .wTxPayload f => Sys2Proof.Machine.execWTxPayload f s
  | .wTxAddress addr => Sys2Proof.Machine.execWTxAddress addr s
  | .rRxPayload => Sys2Proof.Machine.execRRxPayload s
  -- wire frames
  | .frameSetVoltage b => Sys2Proof.Machine.execFrameSetVoltage b s
  | .frameSetSpeed b => Sys2Proof.Machine.execFrameSetSpeed b s
  | .frameSetTimer b => Sys2Proof.Machine.execFrameSetTimer b s
  | .frameNetworkJoinRequest b => Sys2Proof.Machine.execFrameNetworkJoinRequest b s
  | .frameSetSpeedReply b => Sys2Proof.Machine.execFrameSetSpeedReply b s
  | .frameNetworkJoinOpen b => Sys2Proof.Machine.execFrameNetworkJoinOpen b s
  | .frameFanSettings b => Sys2Proof.Machine.execFrameFanSettings b s
  | .frameNetworkJoinAck b => Sys2Proof.Machine.execFrameNetworkJoinAck b s
  | .frameQueryNetwork b => Sys2Proof.Machine.execFrameQueryNetwork b s
  | .frameQueryDevice b => Sys2Proof.Machine.execFrameQueryDevice b s
  | .frameSetVoltageReply b => Sys2Proof.Machine.execFrameSetVoltageReply b s

end Sys2Proof.Machine
end

