-- ==== Sys2Proof/Machine/Fetch.lean ====
section
/-! DEFINITION. What stands in for instruction fetch: "the block has no program counter, fetches no instructions and holds
no program: the host supplies each command" (R12). The next slot of the inbox is sampled and its bytes decoded. -/

namespace Sys2Proof.Machine

/-- What the next slot holds. -/
inductive Fetched where
  /-- Nothing is handed to the block. -/
  | idle
  /-- An instruction, and the state with the inputs of its slot sampled. -/
  | instr (i : Instr) (s : State)
  /-- A wire frame whose command code no row lists. -/
  | frame (f : Frame) (s : State)
  /-- A byte string that is no instruction. -/
  | reject (why : Reject)
  deriving DecidableEq, Repr

/-- The next slot, sampled and decoded at its face. -/
def State.fetch (s : State) : Fetched :=
  match s.inbox with
  | [] => .idle
  | c :: rest => match decode s.params c.port c.bytes with
    | .ok i => .instr i (s.sample c rest)
    | .error (.unlistedFrame f) => .frame f (s.sample c rest)
    | .error why => .reject why

/-- The slot that hands a byte string to a face of the block and changes nothing else: the inputs stay as they were. -/
def State.slotOf (s : State) (port : Port) (bytes : List Byte) : Slot where
  port := port
  bytes := bytes
  dr := s.drIn
  am := s.amIn
  cd := s.cdIn
  now := s.now
  radio := []

/-- The slot for a table word: the face and bytes `tableSlot` takes, or the word's bytes at the host's face where it
takes none. -/
def State.wordSlot (s : State) (nbits w : Nat) : Slot :=
  match tableSlot s.params nbits w with
  | some c => s.slotOf c.1 c.2
  | none => s.slotOf .host (wordBytes w (nbits / 8))

end Sys2Proof.Machine
end

