-- ==== Sys2Proof/Machine/Step.lean ====
section
/-! DEFINITION. One step: the sequencer "takes one step per host command" (spec/00_scope.md section 4). -/

namespace Sys2Proof.Machine

/-- One step. With nothing handed to it the block "does nothing between commands" (R193, R199). -/
def step (s : State) : Host.Outcome State Fault Refusal :=
  match s.fetch with
  | .idle => .next s
  | .instr i s' => exec i s'
  | .frame f s' => carryUnlisted f s'
  | .reject why => .refused (.notACommand why)

/-- `s` with a word of the opcode table handed to the block as its very next slot. -/
def State.withFetchWord (s : State) (nbits w : Nat) : State := { s with inbox := s.wordSlot nbits w :: s.inbox }

end Sys2Proof.Machine
end

