-- ==== Sys2Proof/Safety.lean ====
section
/-! DEFINITION. The terms claims are made in: the invariant of the block, the duties of the host (spec/70_reset_and_hazards.md
R226), the assumptions on the radio (spec/20_memory.md R52), and runs of POLL. -/

namespace Sys2Proof.Machine

/-! ## The invariant -/

/-- What every step keeps (R25 (a), (b), (c), and R13), with the canonical form of the radio's registers and the
well-formedness of the parameters. `pins` is R25 (a) pin by pin, in every value of LIFE: the register of each bound output
is its column of the pin table (R91) for the current MODE, since SETMODE writes it (R94) and nothing else does (R95). With
every mandatory pin bound it is R13's row; R25 (e) follows there, and can fail where one is not bound (log entry 11). -/
structure State.Inv (s : State) : Prop where
  params    : s.params.wf = true
  memory    : s.mem.wf
  pins      : (s.params.bound.pwr = true → s.pwr = pinPwr s.mode) ∧ (s.params.bound.ce = true → s.ce = pinCe s.mode) ∧
    (s.params.bound.txen = true → s.txen = pinTxen s.mode)
  bound     : s.life = .ready → s.params.bound.mandatory = true
  pendReady : s.pend ≠ .none → s.life = .ready
  retx      : s.pend = .txBusy → 1 ≤ s.retx.toNat ∧ s.retx.toNat ≤ s.params.txFrames.toNat

/-- R25 (d): the mode agrees with what is pending. It is kept while the host issues no SETMODE with something pending
(R216). -/
def State.ModeFollowsPend (s : State) : Prop :=
  (s.pend = .txBusy → s.mode = .transmit) ∧ (s.pend = .rxWait → s.mode = .receive)

/-- "It is quiescent when PEND = None" (R227). -/
def State.quiescent (s : State) : Bool := s.pend == .none

/-! ## The host's duties (R226) -/

/-- "Issue SETMODE only when PEND = None" (R216). -/
def keepsSetModeDuty (s : State) : Instr → Prop
  | .setMode _ => s.pend = .none
  | _ => True

/-- What a host that keeps its duties hands to the block: commands at the host's face only (R100), a time that does not
step back (R15, R221), SETMODE only with nothing pending (R216), STARTTX and POLL only when LIFE is Ready (R226), and no
frame with ttl 0 (R223). -/
def Slot.dutiful (s : State) (c : Slot) : Prop :=
  c.port = .host ∧ s.now ≤ c.now ∧
    match decode s.params c.port c.bytes with
    | .ok (.setMode _) => s.pend = .none
    | .ok (.startTx f _) => s.life = .ready ∧ f.ttl ≠ 0#8
    | .ok .poll => s.life = .ready
    | .ok (.init cfg) => s.life = .uninit ∧ cfg.wf = true
    | .ok _ => True
    | .error _ => False

/-! ## The radio (R52): premises a claim may name, never rules of the block -/

/-- The slot changes no byte of a space. -/
def Slot.leaves (c : Slot) (sp : Space) : Prop := ∀ x ∈ c.radio, sp.owns x.1 = false

/-- E1: "with PWR = 0 the radio is powered down and keeps CONFIG, TXADDR and TXPL". -/
def Slot.radioE1 (s : State) (c : Slot) : Prop :=
  s.pwr = false → c.leaves .config ∧ c.leaves .txAddr ∧ c.leaves .txPl

/-- E4, of the sample: in receive, DR comes "with the 16 payload bytes in RXPL". -/
def Slot.radioE4 (s : State) (c : Slot) : Prop :=
  s.pwr = true → s.ce = true → s.txen = false → c.dr = true →
    ∀ i, i < 16 → ((s.mem.radioWrites c.radio).read (Space.rxPl.key i)).isSome = true

/-- E5: "TXPL keeps its contents after a transmission". -/
def Slot.radioE5 (c : Slot) : Prop := c.leaves .txPl

/-- E7: "the radio never drives DR = 1 while CE = 0". -/
def Slot.radioE7 (s : State) (c : Slot) : Prop := c.dr = true → s.ce = true

/-! ## Runs of POLL -/

/-- A POLL that samples these inputs. -/
def pollWith (dr : Bool) (now : Nat) (s : State) : Step := exec .poll { s with drIn := dr, now := now }

/-- POLLs one after the other, each with its own DR and NOW, stopping at the first that gives no next state. -/
def pollAll : List (Bool × Nat) → State → Step
  | [], s => .next s
  | x :: xs, s => match pollWith x.1 x.2 s with
    | .next s' => pollAll xs s'
    | .fault r => .fault r
    | .refused r => .refused r

/-! ## Outcomes -/

/-- An outcome with its next state changed. -/
def mapNext (f : State → State) : Step → Step
  | .next s => .next (f s)
  | .fault r => .fault r
  | .refused r => .refused r

/-- The same state with other levels on the inputs. -/
def State.withInputs (dr am cd : Bool) (now : Nat) (s : State) : State :=
  { s with drIn := dr, amIn := am, cdIn := cd, now := now }

/-! ## The output trace -/

/-- In this piece of OUT, begun with CE at the level `ce`, no write with the command byte `cmd` happens while CE is high
("CE must be low while it is loaded", R220). -/
def loadsWithCeLow (cmd : Byte) : Bool → List OutEvent → Bool
  | _, [] => true
  | ce, .pins _ c _ :: es => loadsWithCeLow cmd (c.getD ce) es
  | ce, .spiW w _ :: es => (w != cmd || !ce) && loadsWithCeLow cmd ce es
  | ce, .spiR _ _ _ :: es => loadsWithCeLow cmd ce es

end Sys2Proof.Machine
end

