-- ==== Sys2Proof/Certificates/Slice0/Obligations.lean ====
section
/-! DEFINITION. The statements for the provers. Each docstring names the rule or the section of spec/ it formalises, and
the decisions (D<n> of spec/92_eei_decisions.md) or log entries it rests on. -/

open Sys2Proof Sys2Proof.Machine

/-! ## Reset -/

/-- Reset (10_state.md section 11; decisions D23, D34), for every choice of the parameters. Of the block: the values the spec
gives, and only those; CFG, TXBUF, BUDGET, RETX and DEADLINE are the model's choice (log entry 1) and are not stated. Of the
radio: CONFIG and TXADDR as they read in a radio that was itself just powered on, which is no value of the block's reset,
since a reset of the block does not reset the radio. That the radio was powered on too is log entry 15 (PRESUMED, unsafe),
the values are those of log entry 14 (PRESUMED, unsafe). -/
def Obligations.ResetLeavesTheStatedValues : Prop :=
  ∀ p : Params,
    (State.powerOn p).life = .uninit ∧ (State.powerOn p).pend = .none ∧ (State.powerOn p).mode = .powerDown ∧
    (State.powerOn p).pwr = false ∧ (State.powerOn p).ce = false ∧ (State.powerOn p).txen = false ∧
    (State.powerOn p).out = [] ∧
    (List.range 10).map (fun i => (State.powerOn p).mem.read (Space.config.key i)) =
      ([0x6C, 0x00, 0x44, 0x20, 0x20, 0xE7, 0xE7, 0xE7, 0xE7, 0xE7] : List Byte).map some ∧
    (List.range 4).map (fun i => (State.powerOn p).mem.read (Space.txAddr.key i)) =
      ([0xE7, 0xE7, 0xE7, 0xE7] : List Byte).map some

/-- Reset in the course of a run (70_reset_and_hazards.md section 1; decisions D23, D32), from every state, whatever LIFE was:
the block is created anew, while every byte of the radio reads as before and the parameters stay; the invariant holds if it
held. That the inputs and what is still to come stay, being outside the block, is the model's choice (log entry 25). -/
def Obligations.ResetKeepsTheRadio : Prop :=
  ∀ s : State,
    s.resetBlock.life = .uninit ∧ s.resetBlock.pend = .none ∧ s.resetBlock.mode = .powerDown ∧
    s.resetBlock.pwr = false ∧ s.resetBlock.ce = false ∧ s.resetBlock.txen = false ∧ s.resetBlock.out = [] ∧
    (∀ k, s.resetBlock.mem.read k = s.mem.read k) ∧
    s.resetBlock.params = s.params ∧ s.resetBlock.drIn = s.drIn ∧ s.resetBlock.amIn = s.amIn ∧
    s.resetBlock.cdIn = s.cdIn ∧ s.resetBlock.now = s.now ∧ s.resetBlock.inbox = s.inbox ∧
    (s.Inv → s.resetBlock.Inv)

/-! ## Encodings -/

/-- The layout of the configuration image (30_encoding.md section 3; the layout is the family's, log entry 14, and AUTO_RETRAN
is 0 by decision D9), for every record and both byte orders, bit by bit: byte 0 the low eight bits of the channel; byte 1,
from bit 7 down, two unused bits and AUTO_RETRAN, all 0, then RX_RED_PWR, PA_PWR, HFREQ_PLL and the channel's top bit;
byte 2 the transmit and the receive address width; bytes 3 and 4 the payload width; bytes 5 to 8 the receive address; byte 9
CRC_MODE, CRC_EN, XOF, UP_CLK_EN and UP_CLK_FREQ. -/
def Obligations.ImageLayout : Prop :=
  ∀ (lsbFirst : Bool) (c : RadioConfig),
    (∀ j, j < 8 → (c.image lsbFirst)[0].getLsbD j = c.channel.getLsbD j) ∧
    ((c.image lsbFirst)[1].getLsbD 7 = false ∧ (c.image lsbFirst)[1].getLsbD 6 = false ∧
      (c.image lsbFirst)[1].getLsbD 5 = false ∧ (c.image lsbFirst)[1].getLsbD 4 = c.rxReduced ∧
      (c.image lsbFirst)[1].getLsbD 3 = c.txPower.getLsbD 1 ∧ (c.image lsbFirst)[1].getLsbD 2 = c.txPower.getLsbD 0 ∧
      (c.image lsbFirst)[1].getLsbD 1 = c.band ∧ (c.image lsbFirst)[1].getLsbD 0 = c.channel.getLsbD 8) ∧
    ((c.image lsbFirst)[2].getLsbD 7 = false ∧ (∀ j, j < 3 → (c.image lsbFirst)[2].getLsbD (4 + j) = c.txAddrWidth.getLsbD j) ∧
      (c.image lsbFirst)[2].getLsbD 3 = false ∧ ∀ j, j < 3 → (c.image lsbFirst)[2].getLsbD j = c.rxAddrWidth.getLsbD j) ∧
    ((c.image lsbFirst)[3].getLsbD 7 = false ∧ (c.image lsbFirst)[3].getLsbD 6 = false ∧
      ∀ j, j < 6 → (c.image lsbFirst)[3].getLsbD j = c.payloadWidth.getLsbD j) ∧
    ((c.image lsbFirst)[4].getLsbD 7 = false ∧ (c.image lsbFirst)[4].getLsbD 6 = false ∧
      ∀ j, j < 6 → (c.image lsbFirst)[4].getLsbD j = c.payloadWidth.getLsbD j) ∧
    (∀ i, (h : i < 4) → (c.image lsbFirst)[5 + i] =
      if lsbFirst then c.rxAddr.extractLsb' (8 * i) 8 else c.rxAddr.extractLsb' (8 * (3 - i)) 8) ∧
    ((c.image lsbFirst)[9].getLsbD 7 = c.crc16 ∧ (c.image lsbFirst)[9].getLsbD 6 = c.crcEn ∧
      (∀ j, j < 3 → (c.image lsbFirst)[9].getLsbD (3 + j) = c.xtal.getLsbD j) ∧
      (c.image lsbFirst)[9].getLsbD 2 = c.clkOutEn ∧
      ∀ j, j < 2 → (c.image lsbFirst)[9].getLsbD j = c.clkOutFreq.getLsbD j)

/-- Words written out from 30_encoding.md section 4 and 95_test_vectors.md (IN1, M4, X1, P1, CO2) decode to the commands
they stand for; likewise a transaction of section 3 and a frame of section 2. -/
def Obligations.WrittenWordsDecode : Prop :=
  decode Params.default .host
      [0x00, 0x76, 0x0E, 0x44, 0x10, 0x10, 0xA9, 0x6E, 0x81, 0x89, 0xD8, 0xA9, 0x6E, 0x81, 0x89] =
    .ok (.init {
      band := true, channel := 118, crcEn := true, crc16 := true, txPower := 3, rxReduced := false,
      rxAddr := 0x89816EA9, txAddr := 0x89816EA9, rxAddrWidth := 4, txAddrWidth := 4, payloadWidth := 16, xtal := 3,
      clkOutEn := false, clkOutFreq := 0 }) ∧
  decode Params.default .host [0x01, 0x03] = .ok (.setMode .receive) ∧
  decode Params.default .host
      [0x02, 0x01, 0x4F, 0x03, 0x2A, 0xFA, 0x02, 0x03, 0, 0, 0, 0, 0, 0, 0, 0, 0, 0x0A] =
    .ok (.startTx {
      dstType := 0x01, dstId := 0x4F, srcType := 0x03, srcId := 0x2A, ttl := 0xFA, command := 0x02,
      payload := #v[3, 0, 0, 0, 0, 0, 0, 0, 0, 0] } 10) ∧
  decode Params.default .host [0x03] = .ok .poll ∧
  decode Params.default .host [0x05, 0x03, 0x01, 0x02, 0x03] = .ok (.decodeBytes [1, 2, 3]) ∧
  decode Params.default .spi [0x22, 0xA9, 0x6E, 0x81, 0x89] = .ok (.wTxAddress 0x89816EA9) ∧
  decode Params.default .frame [0x03, 0x2A, 0x01, 0x4F, 0xFA, 0x05, 0, 0, 0, 0, 0, 0, 0, 0, 0, 0] =
    .ok (.frameSetSpeedReply {
      dstType := 0x03, dstId := 0x2A, srcType := 0x01, srcId := 0x4F, ttl := 0xFA,
      payload := Vector.replicate 10 0 })

/-- DECODE AND ENCODE AGREE, for all 22 rows: every well-formed instruction, with every operand at every value it can
have and under every choice of the parameters whose SPI command bytes can be told apart, decodes from its own byte string
(30_encoding.md sections 2, 3 and 4). -/
def Obligations.DecodeOfEncode : Prop :=
  ∀ (p : Params) (i : Instr), p.spi.wf = true → i.wf = true → decode p i.port (encode p i) = .ok i

/-- Each string has one meaning: what decodes at a face is a well-formed instruction of that face, and its byte string is
the one that was decoded; at the SPI face this leaves out the two reads, whose data bytes are don't-care bytes
(30_encoding.md sections 2, 3 and 4). -/
def Obligations.EncodeOfDecode : Prop :=
  ∀ (p : Params) (port : Port) (bytes : List Byte) (i : Instr), p.spi.wf = true → decode p port bytes = .ok i →
    i.wf = true ∧ i.port = port ∧ ((∀ a, i ≠ .rConfig a) → i ≠ .rRxPayload → encode p i = bytes)

/-- What the host's face turns away (30_encoding.md section 4, decision D24): opcodes 0x06 to 0xFF, mode codes 5 to 255,
and INIT operands with an unused bit or AUTO_RETRAN set. -/
def Obligations.HostRejects : Prop :=
  (∀ (p : Params) (op : Byte) (rest : List Byte), 0x06 ≤ op.toNat → decode p .host (op :: rest) = .error (.noSuchOpcode op)) ∧
  (∀ (p : Params) (b : Byte), 5 ≤ b.toNat → decode p .host [0x01, b] = .error (.noSuchMode b)) ∧
  (∀ (p : Params) (b0 b1 b2 b3 b4 : Byte) (rest : List Byte), rest.length = 9 →
    (b1.extractLsb' 5 3 ≠ 0 ∨ b2.getLsbD 7 = true ∨ b2.getLsbD 3 = true ∨ b3.extractLsb' 6 2 ≠ 0 ∨
      b4.extractLsb' 6 2 ≠ 0) →
    decode p .host (0x00 :: b0 :: b1 :: b2 :: b3 :: b4 :: rest) = .error .noRadioConfig)

/-! ## The step -/

/-- A STEP RUNS THE DECODED INSTRUCTION. With a slot at the head of the inbox whose bytes decode to `i` at its face, the
step is `exec i` of the state with that slot's inputs sampled and the slot taken away (00_scope.md section 4 and R5: "one
at a time, and completes each before it accepts the next"). -/
def Obligations.StepRunsTheDecodedInstruction : Prop :=
  ∀ (s : State) (c : Slot) (rest : List Slot) (i : Instr),
    s.inbox = c :: rest → decode s.params c.port c.bytes = .ok i →
      step s = exec i { s with drIn := c.dr, amIn := c.am, cdIn := c.cd, now := c.now,
                               mem := s.mem.radioWrites c.radio, inbox := rest }

/-- With nothing handed to it the block does nothing (60_exceptions.md sections 6 and 9: "Between commands the block does
nothing"; that a step stands for this is log entry 19, DEDUCED), and a byte string that is no instruction and no frame gives
no next state. Of the reasons for that, an opcode or a mode code that selects nothing and an INIT operand with an unused bit
or AUTO_RETRAN set are the spec's (60_exceptions.md section 1; 30_encoding.md section 4); an INIT operand whose two payload
widths differ is log entry 10 (DEDUCED); a transaction the block never issues is 30_encoding.md
section 3, which says that it is no instruction, while the refusal of one handed to a face is log entry 8 (DESIGN CHOICE);
an empty string and a string of the wrong length are log entry 20 (DEDUCED); a string at the frame face that is not 16
bytes long is log entry 8 (DESIGN CHOICE). -/
def Obligations.StepWithoutAnInstruction : Prop :=
  (∀ s : State, s.inbox = [] → step s = .next s) ∧
  (∀ (s : State) (c : Slot) (rest : List Slot) (why : Reject),
    s.inbox = c :: rest → decode s.params c.port c.bytes = .error why → (∀ f, why ≠ .unlistedFrame f) →
      step s = .refused (.notACommand why))

/-- The codec carries every 16-byte string at the frame face, whether or not a row lists its command code: the fields come
back unmodified and nothing else changes but what sampling the slot does (30_encoding.md section 2; that a frame has a
face of its own is the model's choice, log entry 8). -/
def Obligations.FrameFaceCarriesEveryFrame : Prop :=
  ∀ (s : State) (c : Slot) (rest : List Slot), s.inbox = c :: rest → c.port = .frame → c.bytes.length = 16 →
    ∃ f : Frame, step s = .next { s.sample c rest with ret := .frame f } ∧
      [f.dstType, f.dstId, f.srcType, f.srcId, f.ttl, f.command] ++ f.payload.toList = c.bytes

/-! ## SETMODE -/

/-- SETMODE, in every state (40_mode_control.md sections 1 to 3): MODE, the three pins from the pin table where they are
bound, one Pins event with `-` for an unbound pin, no result, and nothing else. The CE column and the one-step change are
the spec's choices D1, D2, D4. -/
def Obligations.SetModeResult : Prop :=
  ∀ (m : Mode) (s : State),
    exec (.setMode m) s = .next { s with
      mode := m
      pwr := if s.params.bound.pwr then m != .powerDown else s.pwr
      ce := if s.params.bound.ce then m == .receive || m == .transmit else s.ce
      txen := if s.params.bound.txen then m == .transmit else s.txen
      out := s.out ++ [.pins
        (if s.params.bound.pwr then some (m != .powerDown) else none)
        (if s.params.bound.ce then some (m == .receive || m == .transmit) else none)
        (if s.params.bound.txen then some (m == .transmit) else none)]
      ret := .nothing }

/-- An output pin that is not bound is skipped (R94): SETMODE leaves its register and shows `-`, and still writes MODE; and
the skip never happens once LIFE is Ready, since no step arrives there with a mandatory pin unbound. -/
def Obligations.SetModeSkipsUnboundPins : Prop :=
  (∀ (m : Mode) (s : State), ∃ (t : State) (p c x : Option Bool),
    exec (.setMode m) s = .next t ∧ t.mode = m ∧ t.out = s.out ++ [.pins p c x] ∧
    (s.params.bound.pwr = false → t.pwr = s.pwr ∧ p = none) ∧
    (s.params.bound.ce = false → t.ce = s.ce ∧ c = none) ∧
    (s.params.bound.txen = false → t.txen = s.txen ∧ x = none)) ∧
  (∀ s t : State, s.Inv → step s = .next t → t.life = .ready →
    t.params.bound.pwr = true ∧ t.params.bound.ce = true ∧ t.params.bound.txen = true)

/-! ## INIT -/

/-- INIT when LIFE is Uninit, the record is well-formed, the mandatory pins are bound and the read-back passes: the five
events in order, CONFIG and TXADDR written, Idle, Ready (42_init.md, INIT; decisions D2, D4, D8, D9, D10). The bytes read
back are what the radio answers after the first Pins event. -/
def Obligations.InitSucceeds : Prop :=
  ∀ (cfg : RadioConfig) (s : State), s.life = .uninit → cfg.wf = true →
    s.params.bound.pwr = true → s.params.bound.ce = true → s.params.bound.txen = true →
    ∀ rb : Bytes 10,
      rb = State.answer { s with out := s.out ++ [.pins (some false) (some false) (some false)] } .config 0 10 →
      s.params.validate.accepts rb = true →
      exec (.init cfg) s = .next { s with
        life := .ready
        pend := .none
        mode := .idle
        pwr := true
        ce := false
        txen := false
        cfg := cfg
        out := s.out ++ [
          .pins (some false) (some false) (some false),
          .spiR s.params.spi.rConfig 10 rb.toList,
          .spiW s.params.spi.wConfig (cfg.image s.params.addrLsbFirst).toList,
          .spiW s.params.spi.wTxAddress (addrBytes s.params.addrLsbFirst cfg.txAddr),
          .pins (some true) (some false) (some false)]
        mem := (s.mem.writeBytes (Space.config.key 0) (cfg.image s.params.addrLsbFirst).toList).writeBytes
          (Space.txAddr.key 0) (addrBytes s.params.addrLsbFirst cfg.txAddr)
        ret := .result .ok }

/-- What an INIT that ends in Ok leaves in the radio (42_init.md; 30_encoding.md section 3 on the image; decisions D9, D10):
CONFIG holds the image of the record byte for byte, TXADDR its transmit address, and no other byte is touched. That the
radio takes the bytes written is an assumption, log entry 13 (PRESUMED, unsafe): the block never learns whether it did
(20_memory.md section 2). What the image's bytes are is ImageLayout. -/
def Obligations.InitLoadsTheRadio : Prop :=
  ∀ (cfg : RadioConfig) (s t : State), exec (.init cfg) s = .next t → t.ret = .result .ok →
    (∀ i, (h : i < 10) → t.mem.read (Space.config.key i) = some (cfg.image s.params.addrLsbFirst)[i]) ∧
    (∀ i, i < 4 → t.mem.read (Space.txAddr.key i) =
      some (if s.params.addrLsbFirst then cfg.txAddr.extractLsb' (8 * i) 8
        else cfg.txAddr.extractLsb' (8 * (3 - i)) 8)) ∧
    (∀ k, ¬ (Space.config.key 0 ≤ k ∧ k < Space.config.key 0 + 10) →
      ¬ (Space.txAddr.key 0 ≤ k ∧ k < Space.txAddr.key 0 + 4) → t.mem.read k = s.mem.read k)

/-- INIT when the read-back fails: RegisterMismatch, LIFE Failed, the radio forced to PowerDown, nothing written to it
(42_init.md; the error's name and the state it leaves are decision D8). -/
def Obligations.InitReadBackFails : Prop :=
  ∀ (cfg : RadioConfig) (s : State), s.life = .uninit → cfg.wf = true →
    s.params.bound.pwr = true → s.params.bound.ce = true → s.params.bound.txen = true →
    ∀ rb : Bytes 10,
      rb = State.answer { s with out := s.out ++ [.pins (some false) (some false) (some false)] } .config 0 10 →
      s.params.validate.accepts rb = false →
      exec (.init cfg) s = .next { s with
        life := .failed
        mode := .powerDown
        pwr := false
        ce := false
        txen := false
        out := s.out ++ [
          .pins (some false) (some false) (some false),
          .spiR s.params.spi.rConfig 10 rb.toList]
        ret := .result .registerMismatch }

/-- INIT with a mandatory pin unbound: MissingPin, LIFE Failed, and nothing else; whatever DR, AM and CD are (42_init.md;
decision D7). -/
def Obligations.InitMissingPin : Prop :=
  ∀ (cfg : RadioConfig) (s : State), s.life = .uninit → cfg.wf = true →
    (s.params.bound.pwr = false ∨ s.params.bound.ce = false ∨ s.params.bound.txen = false) →
    exec (.init cfg) s = .next { s with life := .failed, ret := .result .missingPin }

/-- What the lifecycle turns away, and in which order INIT tests (60_exceptions.md sections 1 and 4; decisions D6, D11,
D32): INIT unless LIFE is Uninit, then INIT with a record that is not CfgWF; STARTTX and POLL unless LIFE is Ready. -/
def Obligations.LifecycleRefusals : Prop :=
  (∀ (cfg : RadioConfig) (s : State), s.life ≠ .uninit → exec (.init cfg) s = .refused .initNotUninit) ∧
  (∀ (cfg : RadioConfig) (s : State), s.life = .uninit →
    (cfg.payloadWidth ≠ 16 ∨ cfg.rxAddrWidth ≠ 4 ∨ cfg.txAddrWidth ≠ 4 ∨ 4 < cfg.xtal.toNat) →
    exec (.init cfg) s = .refused .initConfigNotWellFormed) ∧
  (∀ (f : Frame) (b : Byte) (s : State), s.life ≠ .ready → exec (.startTx f b) s = .refused .startTxNotReady) ∧
  (∀ s : State, s.life ≠ .ready → exec .poll s = .refused .pollNotReady)

/-! ## STARTTX -/

/-- An accepted STARTTX (43_transmit_receive.md section 1; decisions D12, D13, D14): TXBUF, BUDGET and RETX loaded, through
Idle unless already there, the payload written, then Transmit. -/
def Obligations.StartTxAccepted : Prop :=
  ∀ (f : Frame) (b : Byte) (s : State), s.life = .ready → s.pend = .none →
    exec (.startTx f b) s = .next { s with
      txbuf := f.encode
      budget := b
      retx := s.params.txFrames
      mode := .transmit
      pwr := driven s.params.bound.pwr true s.pwr
      ce := driven s.params.bound.ce true s.ce
      txen := driven s.params.bound.txen true s.txen
      pend := .txBusy
      out := s.out ++ (if s.mode = .idle then [] else
          [.pins (shown s.params.bound.pwr true) (shown s.params.bound.ce false) (shown s.params.bound.txen false)]) ++ [
        .spiW s.params.spi.wTxPayload f.encode.toList,
        .pins (shown s.params.bound.pwr true) (shown s.params.bound.ce true) (shown s.params.bound.txen true)]
      mem := s.mem.writeBytes (Space.txPl.key 0) f.encode.toList
      ret := .result .ok }

/-- STARTTX with an operation pending answers Busy and changes nothing, and the same STARTTX is taken once nothing is
pending (R122). -/
def Obligations.StartTxBusyChangesNothing : Prop :=
  (∀ (f : Frame) (b : Byte) (s : State), s.life = .ready → (s.pend = .txBusy ∨ s.pend = .rxWait) →
    exec (.startTx f b) s = .next { s with ret := .result .busy }) ∧
  (∀ (f : Frame) (b : Byte) (s : State), s.life = .ready → s.pend = .none →
    ∃ t, exec (.startTx f b) s = .next t ∧ t.ret = .result .ok)

/-! ## POLL -/

/-- Arm T1 of POLL (43_transmit_receive.md section 2; decision D13): RETX less one, Idle then Transmit, no reload. -/
def Obligations.PollRepeats : Prop :=
  ∀ s : State, s.life = .ready → s.pend = .txBusy → s.params.bound.dr = true → s.drIn = true → 2 ≤ s.retx.toNat →
    exec .poll s = .next { s with
      retx := s.retx - 1
      mode := .transmit
      pwr := driven s.params.bound.pwr true s.pwr
      ce := driven s.params.bound.ce true s.ce
      txen := driven s.params.bound.txen true s.txen
      out := s.out ++ [
        .pins (shown s.params.bound.pwr true) (shown s.params.bound.ce false) (shown s.params.bound.txen false),
        .pins (shown s.params.bound.pwr true) (shown s.params.bound.ce true) (shown s.params.bound.txen true)]
      ret := .event .idle }

/-- Arms T2 and T3 of POLL (43_transmit_receive.md section 2; decisions D12, D15, D16): the last transmission is complete;
with a budget that is not negative the turn to Receive and the reply wait, with a negative one Idle. -/
def Obligations.PollCompletesTheTransmission : Prop :=
  ∀ s : State, s.life = .ready → s.pend = .txBusy → s.params.bound.dr = true → s.drIn = true → s.retx = 1 →
    (0 ≤ s.budget.toInt →
      exec .poll s = .next { s with
        retx := 0
        mode := .receive
        pwr := driven s.params.bound.pwr true s.pwr
        ce := driven s.params.bound.ce true s.ce
        txen := driven s.params.bound.txen false s.txen
        deadline := s.now + s.params.tReply
        pend := .rxWait
        out := s.out ++ [
          .pins (shown s.params.bound.pwr true) (shown s.params.bound.ce true) (shown s.params.bound.txen false)]
        ret := .event .transmitComplete }) ∧
    (s.budget.toInt < 0 →
      exec .poll s = .next { s with
        retx := 0
        mode := .idle
        pwr := driven s.params.bound.pwr true s.pwr
        ce := driven s.params.bound.ce false s.ce
        txen := driven s.params.bound.txen false s.txen
        pend := .none
        out := s.out ++ [
          .pins (shown s.params.bound.pwr true) (shown s.params.bound.ce false) (shown s.params.bound.txen false)]
        ret := .event .transmitComplete })

/-- Arms W1 and N1 of POLL (43_transmit_receive.md section 2; decisions D17, D18, D19): one R_RX_PAYLOAD, the frame of the
16 bytes the radio answers, PEND None, even when the deadline has passed. After the read RXPL holds no known value (log
entry 9). -/
def Obligations.PollDeliversTheFrame : Prop :=
  ∀ s : State, s.life = .ready → s.params.bound.dr = true → s.drIn = true →
    (s.pend = .rxWait ∨ (s.pend = .none ∧ s.mode = .receive)) →
    ∃ f : Frame,
      [f.dstType, f.dstId, f.srcType, f.srcId, f.ttl, f.command] ++ f.payload.toList = (s.answer .rxPl 0 16).toList ∧
      exec .poll s = .next { s with
        pend := .none
        out := s.out ++ [.spiR s.params.spi.rRxPayload 16 (s.answer .rxPl 0 16).toList]
        mem := s.mem.forget (Space.rxPl.key 0) 16
        ret := .event (.frameReceived f) }

/-- Arm W2 of POLL (43_transmit_receive.md section 2; decisions D16, D18): the timeout; the mode and the pins stay. -/
def Obligations.PollTimesOut : Prop :=
  ∀ s : State, s.life = .ready → s.pend = .rxWait → (s.params.bound.dr = false ∨ s.drIn = false) →
    s.deadline ≤ s.now → exec .poll s = .next { s with pend := .none, ret := .event .receiveTimeout }

/-- Arms T0, W0 and N0 of POLL return Ev.Idle and change nothing (43_transmit_receive.md section 2; decisions D19, D20,
D21). An unbound DR reads 0. -/
def Obligations.PollIdleChangesNothing : Prop :=
  ∀ s : State, s.life = .ready →
    (s.pend = .txBusy ∧ (s.params.bound.dr = false ∨ s.drIn = false) ∨
     s.pend = .rxWait ∧ (s.params.bound.dr = false ∨ s.drIn = false) ∧ s.now < s.deadline ∨
     s.pend = .none ∧ (s.mode ≠ .receive ∨ s.params.bound.dr = false ∨ s.drIn = false)) →
    exec .poll s = .next { s with ret := .event .idle }

/-! ## The codec -/

/-- ENCODE, in every state and for every frame (R140): the 16 bytes in the order of the wire frame, nothing else. -/
def Obligations.EncodeResult : Prop :=
  ∀ (f : Frame) (s : State), ∃ b : Bytes 16,
    exec (.encodeFrame f) s = .next { s with ret := .bytes b } ∧
    b.toList = [f.dstType, f.dstId, f.srcType, f.srcId, f.ttl, f.command] ++ f.payload.toList

/-- DECODE, in every state (R142): BadLength unless the length is 16, then the raw fields; nothing else. -/
def Obligations.DecodeResult : Prop :=
  ∀ (bytes : List Byte) (s : State),
    (bytes.length ≠ 16 → exec (.decodeBytes bytes) s = .next { s with ret := .result .badLength }) ∧
    (bytes.length = 16 → ∃ f : Frame,
      exec (.decodeBytes bytes) s = .next { s with ret := .frame f } ∧
      [f.dstType, f.dstId, f.srcType, f.srcId, f.ttl, f.command] ++ f.payload.toList = bytes)

/-- Encode and Decode16 are inverse to each other (44_frame_codec.md, round trip; the second half is the spec's own
inference). -/
def Obligations.CodecRoundTrips : Prop :=
  (∀ f : Frame, Frame.decode16 f.encode = f) ∧ (∀ b : Bytes 16, (Frame.decode16 b).encode = b)

/-- The eleven FRAME rows, in every state: the codec hands back the frame with the row's command code, and nothing else
changes (30_encoding.md section 2; that the codec is what a wire frame meets is the model's choice, log entry 8). -/
def Obligations.FrameRowsAreCarried : Prop :=
  ∀ (b : FrameBody) (s : State),
    let carried (code : Byte) : Step := .next { s with
      ret := .frame {
        dstType := b.dstType, dstId := b.dstId, srcType := b.srcType, srcId := b.srcId, ttl := b.ttl, command := code,
        payload := b.payload } }
    exec (.frameSetVoltage b) s = carried 0x01 ∧
    exec (.frameSetSpeed b) s = carried 0x02 ∧
    exec (.frameSetTimer b) s = carried 0x03 ∧
    exec (.frameNetworkJoinRequest b) s = carried 0x04 ∧
    exec (.frameSetSpeedReply b) s = carried 0x05 ∧
    exec (.frameNetworkJoinOpen b) s = carried 0x06 ∧
    exec (.frameFanSettings b) s = carried 0x07 ∧
    exec (.frameNetworkJoinAck b) s = carried 0x0C ∧
    exec (.frameQueryNetwork b) s = carried 0x0D ∧
    exec (.frameQueryDevice b) s = carried 0x10 ∧
    exec (.frameSetVoltageReply b) s = carried 0x1D

/-! ## The transactions -/

/-- The three write transactions at start address 0 (41_spi_transactions.md; log entry 8): one SpiW event, the bytes stored
from byte 0 of the space, every other byte and every register as before. That the bytes are stored is an assumption, log
entry 13 (PRESUMED, unsafe) and 20_memory.md section 5: the radio takes the bytes of a write, which the block never learns
(20_memory.md section 2). -/
def Obligations.WriteTransactionsStore : Prop :=
  (∀ (img : Bytes 10) (s : State), ∃ m : Memory,
    exec (.wConfig 0 img) s =
      .next { s with mem := m, out := s.out ++ [.spiW s.params.spi.wConfig img.toList], ret := .nothing } ∧
    (∀ i, (h : i < 10) → m.read (Space.config.key 0 + i) = some img[i]) ∧
    (∀ k, ¬ (Space.config.key 0 ≤ k ∧ k < Space.config.key 0 + 10) → m.read k = s.mem.read k)) ∧
  (∀ (f : Bytes 16) (s : State), ∃ m : Memory,
    exec (.wTxPayload f) s =
      .next { s with mem := m, out := s.out ++ [.spiW s.params.spi.wTxPayload f.toList], ret := .nothing } ∧
    (∀ i, (h : i < 16) → m.read (Space.txPl.key 0 + i) = some f[i]) ∧
    (∀ k, ¬ (Space.txPl.key 0 ≤ k ∧ k < Space.txPl.key 0 + 16) → m.read k = s.mem.read k)) ∧
  (∀ (a : BitVec 32) (s : State), ∃ m : Memory,
    exec (.wTxAddress a) s = .next { s with
      mem := m
      out := s.out ++ [.spiW s.params.spi.wTxAddress (addrBytes s.params.addrLsbFirst a)]
      ret := .nothing } ∧
    (∀ i, i < 4 → m.read (Space.txAddr.key 0 + i) =
      some (if s.params.addrLsbFirst then a.extractLsb' (8 * i) 8 else a.extractLsb' (8 * (3 - i)) 8)) ∧
    (∀ k, ¬ (Space.txAddr.key 0 ≤ k ∧ k < Space.txAddr.key 0 + 4) → m.read k = s.mem.read k))

/-- The two read transactions at start address 0 (41_spi_transactions.md; log entry 8): one SpiR event with as many bytes
as the transaction moves, each the byte the radio holds where it holds a known one, handed back; no register changes. The
16 bytes of RXPL hold no known value after R_RX_PAYLOAD (log entry 9); CONFIG is unchanged by R_CONFIG. -/
def Obligations.ReadTransactionsAnswer : Prop :=
  (∀ s : State, ∃ d : Bytes 10,
    exec (.rConfig 0) s =
      .next { s with out := s.out ++ [.spiR s.params.spi.rConfig 10 d.toList], ret := .data d.toList } ∧
    (∀ i, (h : i < 10) → ∀ b, s.mem.read (Space.config.key 0 + i) = some b → d[i] = b)) ∧
  (∀ s : State, ∃ (d : Bytes 16) (m : Memory),
    exec .rRxPayload s = .next { s with
      mem := m, out := s.out ++ [.spiR s.params.spi.rRxPayload 16 d.toList], ret := .data d.toList } ∧
    (∀ i, (h : i < 16) → ∀ b, s.mem.read (Space.rxPl.key 0 + i) = some b → d[i] = b) ∧
    (∀ i, i < 16 → m.read (Space.rxPl.key 0 + i) = none) ∧
    (∀ k, ¬ (Space.rxPl.key 0 ≤ k ∧ k < Space.rxPl.key 0 + 16) → m.read k = s.mem.read k))

/-- What is written is read back (20_memory.md section 7, "a read transaction returns what the radio holds at that point of
the order"; that the radio takes the bytes is an assumption, 20_memory.md sections 5 and 8): R_CONFIG right after W_CONFIG
answers its bytes. -/
def Obligations.ConfigReadsBack : Prop :=
  ∀ (img : Bytes 10) (s : State), ∃ t u,
    exec (.wConfig 0 img) s = .next t ∧ exec (.rConfig 0) t = .next u ∧ u.ret = .data img.toList ∧ u.mem = t.mem

/-- W_CONFIG and R_CONFIG with any other start address run past the end of CONFIG, and stop so (20_memory.md sections 1
and 4; the fault is the model's, log entry 12). -/
def Obligations.ConfigStartAddressFaults : Prop :=
  ∀ (a : BitVec 4) (img : Bytes 10) (s : State), a ≠ 0 →
    exec (.wConfig a img) s = .fault (.pastEndOfConfig a) ∧ exec (.rConfig a) s = .fault (.pastEndOfConfig a)

/-! ## Frames and owners, over all instructions -/

/-- Each register is written by its owners only (10_state.md sections 1 to 6): LIFE and CFG by INIT; TXBUF and BUDGET by
STARTTX; RETX by STARTTX and POLL; DEADLINE by POLL; PEND by INIT, STARTTX and POLL; MODE and the pins by SETMODE, INIT,
STARTTX and POLL; OUT by those and the transactions. The parameters, the inputs and what is still to come are written by
none. -/
def Obligations.RegistersHaveOwners : Prop :=
  ∀ (i : Instr) (s t : State), exec i s = .next t →
    (t.params = s.params ∧ t.drIn = s.drIn ∧ t.amIn = s.amIn ∧ t.cdIn = s.cdIn ∧ t.now = s.now ∧ t.inbox = s.inbox) ∧
    ((∀ cfg, i ≠ .init cfg) → t.life = s.life ∧ t.cfg = s.cfg) ∧
    ((∀ f b, i ≠ .startTx f b) → t.txbuf = s.txbuf ∧ t.budget = s.budget) ∧
    ((∀ f b, i ≠ .startTx f b) → i ≠ .poll → t.retx = s.retx) ∧
    (i ≠ .poll → t.deadline = s.deadline) ∧
    ((∀ cfg, i ≠ .init cfg) → (∀ f b, i ≠ .startTx f b) → i ≠ .poll → t.pend = s.pend) ∧
    ((∀ m, i ≠ .setMode m) → (∀ cfg, i ≠ .init cfg) → (∀ f b, i ≠ .startTx f b) → i ≠ .poll →
      t.mode = s.mode ∧ t.pwr = s.pwr ∧ t.ce = s.ce ∧ t.txen = s.txen ∧ (i.port ≠ .spi → t.out = s.out))

/-- Every byte of the radio's registers reads as before, but those the instruction's own transactions touch (20_memory.md
sections 1 and 5): CONFIG and TXADDR for INIT, the first 16 bytes of TXPL for STARTTX, the first 16 of RXPL for POLL (which
stores nothing: after the read they hold no known value, log entry 9), and for a transaction its own. -/
def Obligations.MemoryFrame : Prop :=
  ∀ (i : Instr) (s t : State), exec i s = .next t →
    ∀ k : Nat,
      (match i with
        | .init _ => ¬ (Space.config.key 0 ≤ k ∧ k < Space.config.key 0 + 10) ∧
            ¬ (Space.txAddr.key 0 ≤ k ∧ k < Space.txAddr.key 0 + 4)
        | .startTx _ _ | .wTxPayload _ => ¬ (Space.txPl.key 0 ≤ k ∧ k < Space.txPl.key 0 + 16)
        | .poll | .rRxPayload => ¬ (Space.rxPl.key 0 ≤ k ∧ k < Space.rxPl.key 0 + 16)
        | .wConfig a _ => ¬ (Space.config.key a.toNat ≤ k ∧ k < Space.config.key a.toNat + 10)
        | .wTxAddress _ => ¬ (Space.txAddr.key 0 ≤ k ∧ k < Space.txAddr.key 0 + 4)
        | _ => True) →
      t.mem.read k = s.mem.read k

/-- The inputs reach POLL alone (10_state.md section 5): with other levels on them every other instruction does the same,
and POLL does not see AM and CD. -/
def Obligations.OnlyPollSeesTheInputs : Prop :=
  ∀ (i : Instr) (s : State) (dr am cd : Bool) (now : Nat),
    (i ≠ .poll → exec i (s.withInputs dr am cd now) = mapNext (State.withInputs dr am cd now) (exec i s)) ∧
    exec .poll (s.withInputs s.drIn am cd s.now) = mapNext (State.withInputs s.drIn am cd s.now) (exec .poll s)

/-- SETMODE, POLL and ENCODE return no error in any state: SETMODE and ENCODE are accepted in every state, and POLL reports
through events (R181). -/
def Obligations.NoErrorFromSetModePollEncode : Prop :=
  (∀ (m : Mode) (s : State), ∃ t, exec (.setMode m) s = .next t ∧ ∀ r, t.ret ≠ .result r) ∧
  (∀ s t : State, exec .poll s = .next t → ∃ e, t.ret = .event e) ∧
  (∀ (f : Frame) (s : State), ∃ t b, exec (.encodeFrame f) s = .next t ∧ t.ret = .bytes b)

/-- An error result leaves exactly the changes of the table of 60_exceptions.md section 1, and none other (section 5): only
INIT, STARTTX and DECODE give one, and each its own. -/
def Obligations.ErrorsArePrecise : Prop :=
  ∀ (i : Instr) (s t : State) (r : Result), exec i s = .next t → t.ret = .result r → r.isError = true →
    (r = .missingPin ∧ (∃ cfg, i = .init cfg) ∧ t = { s with life := .failed, ret := .result r }) ∨
    (r = .registerMismatch ∧ (∃ cfg, i = .init cfg) ∧
      t = { s with life := .failed, mode := .powerDown, pwr := false, ce := false, txen := false, out := t.out,
                   ret := .result r } ∧
      ∃ rb, t.out = s.out ++ [.pins (some false) (some false) (some false), .spiR s.params.spi.rConfig 10 rb]) ∨
    (r = .busy ∧ (∃ f b, i = .startTx f b) ∧ t = { s with ret := .result r }) ∨
    (r = .badLength ∧ (∃ bs, i = .decodeBytes bs) ∧ t = { s with ret := .result r })

/-- LIFE leaves Uninit once, and CFG is "immutable-after-init" (10_state.md sections 3 and 7, 70_reset_and_hazards.md section
1; decision D32): from Ready or Failed no step changes either. -/
def Obligations.LifeAndConfigAreFinal : Prop :=
  ∀ s t : State, s.life ≠ .uninit → step s = .next t → t.life = s.life ∧ t.cfg = s.cfg

/-- The block itself sets neither Standby nor PowerDown after INIT (40_mode_control.md section 3; the spec's own
inference): once Ready, whatever is not a host SETMODE leaves the mode or sets Idle, Receive or Transmit. -/
def Obligations.BlockSetsNoPowerSaving : Prop :=
  ∀ (i : Instr) (s t : State), s.life = .ready → (∀ m, i ≠ .setMode m) → exec i s = .next t →
    t.mode = s.mode ∨ t.mode = .idle ∨ t.mode = .receive ∨ t.mode = .transmit

/-- OUT is a total order that only grows (10_state.md section 6, 20_memory.md section 7; decision D34): a step appends to it
and takes nothing back. -/
def Obligations.OutputTraceOnlyGrows : Prop := ∀ s t : State, step s = .next t → s.out <+: t.out

/-- The payload is loaded with CE low (41_spi_transactions.md, on the order inside a command; 70_reset_and_hazards.md
section 3; decisions D2, D14): no host command writes TXPL while CE is high, with CE followed through the Pins events from
its level before the command. -/
def Obligations.PayloadLoadedWithCeLow : Prop :=
  ∀ (i : Instr) (s t : State), s.Inv → i.port = .host → exec i s = .next t →
    ∃ evs, t.out = s.out ++ evs ∧ loadsWithCeLow s.params.spi.wTxPayload s.ce evs = true

/-! ## Invariants -/

/-- The invariant holds right after reset, for every well-formed choice of the parameters (10_state.md sections 10 and 11,
decision D23). -/
def Obligations.InvariantHoldsAtReset : Prop :=
  (∀ p : Params, p.wf = true → (State.powerOn p).Inv) ∧ State.reset.Inv

/-- AN INVARIANT THAT EVERY STEP KEEPS (10_state.md section 10, and section 4 on the pins): each bound output pin is its column
of the row of the mode, whichever of the others are bound, something pending implies Ready, a pending transmission has
1 to TX_FRAMES transmissions left, the radio's registers keep their canonical form. From every state that meets it,
not only those a run reaches. -/
def Obligations.EveryStepKeepsTheInvariant : Prop := ∀ s t : State, s.Inv → step s = .next t → t.Inv

/-- The mode agrees with what is pending, while the host issues SETMODE only with nothing pending (10_state.md section 10 (d),
70_reset_and_hazards.md section 3). -/
def Obligations.ModeFollowsPend : Prop :=
  ∀ s t : State, s.Inv → s.ModeFollowsPend → (∀ i s', s.fetch = .instr i s' → keepsSetModeDuty s i) →
    step s = .next t → t.ModeFollowsPend

/-- "No mode asserts transmit-enable and not power": where the mandatory pins are bound, TXEN = 1 implies PWR = 1 and CE = 1
in the state after every step (10_state.md section 10 (e); with a mandatory pin unbound it can fail, log entry 11). -/
def Obligations.TransmitEnableImpliesPower : Prop :=
  ∀ s t : State, s.Inv → step s = .next t → t.params.bound.mandatory = true → t.txen = true →
    t.pwr = true ∧ t.ce = true

/-! ## Exchanges -/

/-- While a transmission is pending, POLLs count the ticks on which they see DR = 1 and nothing else
(43_transmit_receive.md section 2; 70_reset_and_hazards.md section 3, "DR seen twice"; decision D13): after any POLLs that
see it `k` times, with `k` below RETX, the transmission is still pending, RETX is less by `k`, and OUT has gained `k` times
Idle, Transmit. -/
def Obligations.PollsCountTransmissions : Prop :=
  ∀ (s : State) (l : List (Bool × Nat)), s.life = .ready → s.pend = .txBusy → s.params.bound.dr = true →
    l.countP (·.1) < s.retx.toNat →
    ∃ t, pollAll l s = .next t ∧ t.life = .ready ∧ t.pend = .txBusy ∧ t.budget = s.budget ∧ t.txbuf = s.txbuf ∧
      t.retx.toNat = s.retx.toNat - l.countP (·.1) ∧
      t.out = s.out ++ (List.replicate (l.countP (·.1)) [s.pinsEvent .idle, s.pinsEvent .transmit]).flatten

/-- TRANSMIT IS DRIVEN TX_FRAMES TIMES (43_transmit_receive.md sections 1 and 2; decisions D12 to D16): from Ready with
nothing pending and DR bound, an accepted STARTTX and then POLLs of which the last sees DR = 1 for the TX_FRAMES-th time end
in TransmitComplete, and OUT has gained, after the load, TX_FRAMES times Transmit: the first by STARTTX, each further one by
a CE cycle through Idle, with no payload written again. Then either the reply wait, with its deadline T_REPLY after the last
POLL, or Idle with nothing pending, as the sign of the budget says. It speaks of MODE and the pins, not of the air: that a
frame goes out each time would need E2 and E3 of 20_memory.md section 8 as premises (log entries 21 and 22). -/
def Obligations.StartTxDrivesTransmitTxFramesTimes : Prop :=
  ∀ (f : Frame) (b : Byte) (s : State) (l : List (Bool × Nat)) (now : Nat),
    s.life = .ready → s.pend = .none → s.params.bound.dr = true →
    l.countP (·.1) + 1 = s.params.txFrames.toNat →
    ∃ u t, exec (.startTx f b) s = .next u ∧ pollAll (l ++ [(true, now)]) u = .next t ∧
      t.ret = .event .transmitComplete ∧ t.retx = 0 ∧
      t.out = s.out ++ (if s.mode = .idle then [] else [s.pinsEvent .idle]) ++
        [.spiW s.params.spi.wTxPayload f.encode.toList, s.pinsEvent .transmit] ++
        (List.replicate (s.params.txFrames.toNat - 1) [s.pinsEvent .idle, s.pinsEvent .transmit]).flatten ++
        [s.pinsEvent (if 0 ≤ b.toInt then .receive else .idle)] ∧
      (if 0 ≤ b.toInt then t.pend = .rxWait ∧ t.mode = .receive ∧ t.deadline = now + s.params.tReply
       else t.pend = .none ∧ t.mode = .idle)

/-- The reply wait ends (43_transmit_receive.md sections 2 and 3; decisions D16, D18): of POLLs that do not see DR, because it
is unbound or reads 0, those before the deadline answer Ev.Idle and change nothing but the inputs sampled, and the first at
or after it reports ReceiveTimeout, leaves nothing pending and changes nothing else. -/
def Obligations.ReplyWaitEndsAtTheDeadline : Prop :=
  ∀ (s : State) (l : List (Bool × Nat)) (dr : Bool) (now : Nat), s.life = .ready → s.pend = .rxWait →
    (∀ x ∈ l, (s.params.bound.dr = false ∨ x.1 = false) ∧ x.2 < s.deadline) →
    (s.params.bound.dr = false ∨ dr = false) → s.deadline ≤ now →
    (∃ d n, pollAll l s =
      .next { s with drIn := d, now := n, ret := if l.isEmpty then s.ret else .event .idle }) ∧
    pollAll (l ++ [(dr, now)]) s =
      .next { s with drIn := dr, now := now, pend := .none, ret := .event .receiveTimeout }

/-- The hang of an unbound DR is kept (70_reset_and_hazards.md section 3, "DR never seen"; decision D20): a pending
transmission stays pending through any number of POLLs, whatever DR_in and NOW are, and STARTTX goes on answering Busy. -/
def Obligations.UnboundDrHangs : Prop :=
  ∀ (s : State) (l : List (Bool × Nat)), s.life = .ready → s.pend = .txBusy → s.params.bound.dr = false →
    ∃ t, pollAll l s = .next t ∧ t.pend = .txBusy ∧ t.retx = s.retx ∧ t.out = s.out ∧ t.mode = s.mode ∧
      ∀ (f : Frame) (b : Byte), exec (.startTx f b) t = .next { t with ret := .result .busy }
end

