-- ==== Sys2Proof/Laws/Config.lean ====
section
/-! SUPPORT. The parameters: `CfgTest` leaves ValidateCfg open, as the spec does (spec/42_init.md R112). -/

namespace Sys2Proof.Laws

/-- There are finitely many ten-byte strings. -/
theorem finite_bytes (n : Nat) : Finite (Bytes n) := by
  have : Finite Byte := Finite.of_injective BitVec.toFin fun _ _ h => BitVec.eq_of_toFin_eq h
  exact Finite.of_injective (fun (v : Bytes n) (i : Fin n) => v[i]) fun v w h => by
    ext i hi : 1
    exact congrFun h ⟨i, hi⟩

/-- Every predicate on ten-byte strings is a `CfgTest`, so nothing is assumed of the test. -/
theorem cfgTest_expresses_every_predicate (f : Bytes 10 → Bool) : ∃ t : CfgTest, ∀ b, t.accepts b = f b := by
  have := finite_bytes 10
  refine ⟨{ verdict := true, except := (Set.toFinite { b : Bytes 10 | f b = false }).toFinset.toList }, fun b => ?_⟩
  by_cases h : f b = false <;> simp [CfgTest.accepts, h]

end Sys2Proof.Laws
end

