-- ==== Sys2Proof/Laws/Encoding.lean ====
section
/-! SUPPORT. The laws of the operand forms and of the encodings: strings of fixed length, the numeric codes, the codec, the
address bytes, and the command bytes of the CONFIG transactions. -/

namespace Sys2Proof

/-! ## Strings of fixed length -/

@[simp] theorem exactly_toList {n : Nat} (v : Bytes n) : exactly n v.toList = some v := by
  obtain ⟨⟨l⟩, h⟩ := v
  simp only [List.size_toArray] at h
  simp [exactly, h]

theorem exactly_eq_some {n : Nat} {l : List Byte} {v : Bytes n} (h : exactly n l = some v) : v.toList = l := by
  unfold exactly at h
  split at h
  · cases h; rfl
  · cases h

theorem exactly_of_length {n : Nat} {l : List Byte} (h : l.length = n) : ∃ v, exactly n l = some v :=
  ⟨_, dif_pos h⟩

theorem exactly_eq_none_iff {n : Nat} {l : List Byte} : exactly n l = none ↔ l.length ≠ n := by
  simp [exactly]

@[simp] theorem getElem_gather (n : Nat) (f : Nat → Byte) (i : Nat) (h : i < n) : (gather n f)[i] = f i := by
  simp [gather]

@[simp] theorem length_addrBytes (lsbFirst : Bool) (a : BitVec 32) : (addrBytes lsbFirst a).length = 4 := by
  cases lsbFirst <;> rfl

/-! ## Numeric codes -/

@[simp] theorem mode_ofCode_code (m : Mode) : Mode.ofCode m.code = some m := by cases m <;> rfl

@[simp] theorem frameCommand_ofCode_code (c : FrameCommand) : FrameCommand.ofCode c.code = some c := by
  cases c <;> rfl

theorem mode_code_of_ofCode {b : Byte} {m : Mode} (h : Mode.ofCode b = some m) : m.code = b := by
  apply BitVec.eq_of_toNat_eq
  unfold Mode.ofCode at h
  split at h <;> simp only [Option.some.injEq, reduceCtorEq] at h <;> subst h <;> simp [Mode.code, *]

theorem frameCommand_code_of_ofCode {b : Byte} {c : FrameCommand} (h : FrameCommand.ofCode b = some c) :
    c.code = b := by
  apply BitVec.eq_of_toNat_eq
  unfold FrameCommand.ofCode at h
  split at h <;> simp only [Option.some.injEq, reduceCtorEq] at h <;> subst h <;> simp [FrameCommand.code, *]

/-! ## The frame rows -/

@[simp] theorem body_withCommand (b : FrameBody) (c : Byte) : (b.withCommand c).body = b := rfl

@[simp] theorem command_withCommand (b : FrameBody) (c : Byte) : (b.withCommand c).command = c := rfl

@[simp] theorem withCommand_body (f : Frame) : f.body.withCommand f.command = f := rfl

/-- The byte string of a frame row. -/
theorem encode_ofFrame (p : Params) (c : FrameCommand) (b : FrameBody) :
    encode p (Instr.ofFrame c b) = frameBytes c b := by cases c <;> rfl

@[simp] theorem port_ofFrame (c : FrameCommand) (b : FrameBody) : (Instr.ofFrame c b).port = .frame := by
  cases c <;> rfl

/-! ## Addresses -/

/-- An address comes back from its address bytes. -/
theorem addrOf_addrBytes (lsbFirst : Bool) (a : BitVec 32) :
    ∃ b0 b1 b2 b3, addrBytes lsbFirst a = [b0, b1, b2, b3] ∧ addrOf lsbFirst b0 b1 b2 b3 = a := by
  cases lsbFirst <;> refine ⟨_, _, _, _, rfl, ?_⟩ <;> apply BitVec.eq_of_getLsbD_eq <;> intro i hi <;>
    interval_cases i <;>
    simp only [addrOf, if_true, Bool.false_eq_true, if_false, BitVec.getLsbD_append, BitVec.getLsbD_extractLsb'] <;> simp

/-- Four bytes come back from the address they make. -/
@[simp] theorem addrBytes_addrOf (lsbFirst : Bool) (b0 b1 b2 b3 : Byte) :
    addrBytes lsbFirst (addrOf lsbFirst b0 b1 b2 b3) = [b0, b1, b2, b3] := by
  cases lsbFirst <;> simp only [addrBytes, addrOf, if_true, Bool.false_eq_true, if_false, List.reverse_cons,
    List.reverse_nil, List.nil_append, List.cons_append, List.cons.injEq, and_true] <;>
    refine ⟨?_, ?_, ?_, ?_⟩ <;> apply BitVec.eq_of_getLsbD_eq <;> intro i hi <;> interval_cases i <;>
    simp only [BitVec.getLsbD_append, BitVec.getLsbD_extractLsb'] <;> simp

/-! ## Command bytes with a start address -/

/-- A code that leaves the low four bits free has none of them set. -/
theorem low_clear {c : Byte} (h : c &&& 0x0F#8 = 0#8) {i : Nat} (hi : i < 4 := by omega) : c.getLsbD i = false := by
  have := congrArg (BitVec.getLsbD · i) h
  interval_cases i <;> simpa using this

/-- The start address is in the low four bits. -/
theorem startOf_withStart {c : Byte} (a : BitVec 4) (h : c &&& 0x0F#8 = 0#8) : startOf (withStart c a) = a := by
  have h0 := low_clear h (i := 0); have h1 := low_clear h (i := 1)
  have h2 := low_clear h (i := 2); have h3 := low_clear h (i := 3)
  clear h
  apply BitVec.eq_of_getLsbD_eq
  intro i hi
  interval_cases i <;> simp_all [startOf, withStart]

/-- The code is in the high four bits. -/
theorem withStart_and {c : Byte} (a : BitVec 4) (h : c &&& 0x0F#8 = 0#8) : withStart c a &&& 0xF0#8 = c := by
  have h0 := low_clear h (i := 0); have h1 := low_clear h (i := 1)
  have h2 := low_clear h (i := 2); have h3 := low_clear h (i := 3)
  clear h
  apply BitVec.eq_of_getLsbD_eq
  intro i hi
  interval_cases i <;> simp_all [withStart]

/-- A command byte is its high four bits with its start address. -/
theorem withStart_startOf (cmd : Byte) : withStart (cmd &&& 0xF0#8) (startOf cmd) = cmd := by
  apply BitVec.eq_of_getLsbD_eq
  intro i hi
  interval_cases i <;> simp [withStart, startOf]

end Sys2Proof
end

