-- ==== Sys2Proof/Laws/Memory.lean ====
section
/-! SUPPORT. The laws of the radio's register spaces as memory: a read after a write, a write leaves every other key alone,
and every operation keeps the canonical form. -/

namespace Sys2Proof.Memory

/-! ## Spaces -/

theorem holds_iff (sp : Space) (a n : Nat) : sp.holds a n = true ↔ a + n ≤ sp.size := by simp [Space.holds]

theorem owns_iff (sp : Space) (k : Nat) : sp.owns k = true ↔ sp.base ≤ k ∧ k < sp.base + sp.size := by
  simp [Space.owns]

/-- The keys of bytes that lie inside a space exist. -/
theorem mapped_key {sp : Space} {a n i : Nat} (h : sp.holds a n = true) (hi : i < n) :
    mapped (sp.key a + i) = true := by
  rw [holds_iff] at h
  cases sp <;> simp only [mapped, Bool.or_eq_true, owns_iff, Space.key] <;>
    simp only [Space.base, Space.size] at h ⊢ <;> omega

/-- No two spaces share a key. -/
theorem spaces_disjoint {sp sp' : Space} (h : sp ≠ sp') (k : Nat) : ¬ (sp.owns k = true ∧ sp'.owns k = true) := by
  rw [owns_iff, owns_iff]
  cases sp <;> cases sp' <;> first | exact absurd rfl h | (simp only [Space.base, Space.size]; omega)

/-! ## Lookup -/

theorem lookup_insert_same (m : Memory) (k : Nat) (b : Byte) : (m.insert k b).lookup k = some b := by
  induction m with
  | nil => simp [insert, lookup]
  | cons c m ih =>
    by_cases h1 : c.1 < k
    · simp [insert, lookup, h1, Nat.ne_of_lt h1, ih]
    · by_cases h2 : c.1 = k <;> simp [insert, lookup, h1, h2]

theorem lookup_insert_other (m : Memory) {k k' : Nat} (b : Byte) (h : k' ≠ k) :
    (m.insert k b).lookup k' = m.lookup k' := by
  induction m with
  | nil => simp [insert, lookup, h.symm]
  | cons c m ih =>
    by_cases h1 : c.1 < k
    · simp [insert, lookup, h1, ih]
    · by_cases h2 : c.1 = k
      · subst h2; simp [insert, lookup, h.symm]
      · simp [insert, lookup, h1, h2, h.symm]

theorem lookup_filter (m : Memory) (q : Host.Cell → Bool) (p : Nat → Bool) (hq : ∀ c, q c = p c.1) (k : Nat) :
    Memory.lookup (m.filter q) k = if p k = true then m.lookup k else none := by
  induction m with
  | nil => simp [lookup]
  | cons c m ih =>
    by_cases h1 : p c.1 = true <;> by_cases h2 : c.1 = k
    · subst h2; simp [List.filter, hq, h1, lookup]
    · simp [List.filter, hq, h1, lookup, h2, ih]
    · subst h2; simp [List.filter, hq, h1, ih]
    · simp [List.filter, hq, h1, lookup, h2, ih]

/-! ## Reading one byte -/

/-- A read after a write to the same key gives the byte written. -/
@[simp] theorem read_write_same (m : Memory) (k : Nat) (b : Byte) : (m.write k b).read k = some b := by
  by_cases h : unlisted k = some b
  · simp [read, write, h, erase, lookup_filter m _ (fun j => j != k) (fun _ => rfl)]
  · simp [read, write, h, lookup_insert_same]

/-- A write leaves every other key alone. -/
theorem read_write_other (m : Memory) {k k' : Nat} (b : Byte) (h : k' ≠ k) : (m.write k b).read k' = m.read k' := by
  by_cases hu : unlisted k = some b
  · simp [read, write, hu, erase, lookup_filter m _ (fun j => j != k) (fun _ => rfl), h]
  · simp [read, write, hu, lookup_insert_other m b h]

/-- A string stored leaves every key outside its own alone. -/
theorem read_writeBytes_outside (bs : List Byte) (m : Memory) (k j : Nat) (h : j < k ∨ k + bs.length ≤ j) :
    (m.writeBytes k bs).read j = m.read j := by
  induction bs generalizing m k with
  | nil => rfl
  | cons b bs ih =>
    simp only [List.length_cons] at h
    rw [writeBytes, ih _ _ (by omega), read_write_other m b (by omega)]

/-- A string stored is read back byte for byte. -/
theorem read_writeBytes_inside (bs : List Byte) (m : Memory) (k i : Nat) (h : i < bs.length) :
    (m.writeBytes k bs).read (k + i) = some bs[i] := by
  induction bs generalizing m k i with
  | nil => simp at h
  | cons b bs ih =>
    cases i with
    | zero => rw [writeBytes, read_writeBytes_outside bs _ _ _ (by omega)]; simp
    | succ i =>
      simp only [List.length_cons] at h
      have := ih (m.write k b) (k + 1) i (by omega)
      rw [writeBytes, show k + (i + 1) = k + 1 + i by omega, this]; simp

/-- After `forget`, the keys forgotten read as unlisted ones, and every other key as before. -/
theorem read_forget (m : Memory) (k n j : Nat) :
    (m.forget k n).read j = if k ≤ j ∧ j < k + n then unlisted j else m.read j := by
  have hl := lookup_filter m (fun c => !(k ≤ c.1 && c.1 < k + n)) (fun j => !(k ≤ j && j < k + n)) (fun _ => rfl) j
  rw [read, forget, hl]
  by_cases h : k ≤ j ∧ j < k + n
  · simp [h]
  · have : (!(decide (k ≤ j) && decide (j < k + n))) = true := by
      simp only [Bool.not_eq_true', Bool.and_eq_false_iff, decide_eq_false_iff_not]; omega
    simp only [this, if_true, if_neg h, read]

/-! ## The canonical form -/

theorem wf_nil : Memory.wf [] := ⟨.nil, by simp⟩

theorem mem_insert {m : Memory} {k : Nat} {b : Byte} {c : Host.Cell} (h : c ∈ m.insert k b) :
    c = (k, b) ∨ c ∈ m := by
  induction m with
  | nil => simpa [insert] using h
  | cons d m ih =>
    simp only [insert] at h
    split at h
    · rcases List.mem_cons.1 h with rfl | h
      · simp
      · rcases ih h with h | h <;> simp [h]
    · split at h <;> (rcases List.mem_cons.1 h with h | h) <;> simp_all

theorem pairwise_insert {m : Memory} (k : Nat) (b : Byte) (h : m.Pairwise (fun c d => c.1 < d.1)) :
    (m.insert k b).Pairwise (fun c d => c.1 < d.1) := by
  induction m with
  | nil => simp [insert]
  | cons c m ih =>
    obtain ⟨hc, hm⟩ := List.pairwise_cons.1 h
    simp only [insert]
    split
    · refine List.pairwise_cons.2 ⟨fun d hd => ?_, ih hm⟩
      rcases mem_insert hd with rfl | hd
      · assumption
      · exact hc d hd
    · split
      · next h2 => exact List.pairwise_cons.2 ⟨fun d hd => h2 ▸ hc d hd, hm⟩
      · refine List.pairwise_cons.2 ⟨fun d hd => ?_, h⟩
        rcases List.mem_cons.1 hd with rfl | hd
        · show k < d.1; omega
        · have := hc d hd; show k < d.1; omega

theorem wf_filter {m : Memory} (q : Host.Cell → Bool) (h : m.wf) : Memory.wf (m.filter q) :=
  ⟨h.1.filter _, fun c hc => h.2 c (List.mem_of_mem_filter hc)⟩

theorem wf_write {m : Memory} {k : Nat} (b : Byte) (hk : mapped k = true) (h : m.wf) : (m.write k b).wf := by
  unfold write
  split
  · exact wf_filter _ h
  · next hu =>
    refine ⟨pairwise_insert k b h.1, fun c hc => ?_⟩
    rcases mem_insert hc with rfl | hc
    · exact ⟨hk, hu⟩
    · exact h.2 c hc

theorem wf_writeBytes (bs : List Byte) {m : Memory} {k : Nat} (hk : ∀ i, i < bs.length → mapped (k + i) = true)
    (h : m.wf) : (m.writeBytes k bs).wf := by
  induction bs generalizing m k with
  | nil => exact h
  | cons b bs ih =>
    refine ih (fun i hi => ?_) (wf_write b (hk 0 (by simp)) h)
    have := hk (i + 1) (by simpa using hi)
    rwa [show k + (i + 1) = k + 1 + i by omega] at this

theorem wf_forget {m : Memory} (k n : Nat) (h : m.wf) : (m.forget k n).wf := wf_filter _ h

theorem wf_radioWrites (cs : List Host.Cell) {m : Memory} (h : m.wf) : (m.radioWrites cs).wf := by
  induction cs generalizing m with
  | nil => exact h
  | cons c cs ih =>
    refine ih ?_
    split
    · next hc => exact wf_write _ hc h
    · exact h

end Sys2Proof.Memory
end

