-- ==== Sys2Proof/Laws/State.lean ====
section
/-! SUPPORT. One lemma per field per update of the state, true by definition, so that no later proof unfolds an update. The
five transactions and `raise` are `memRead`, `memWrite` and `respond` at fixed operands, and rewrite to them. -/

namespace Sys2Proof.Machine.State

/-! ## respond -/

section
variable (s : State) (r : Response)

@[simp] theorem respond_params : (s.respond r).params = s.params := rfl
@[simp] theorem respond_life : (s.respond r).life = s.life := rfl
@[simp] theorem respond_pend : (s.respond r).pend = s.pend := rfl
@[simp] theorem respond_mode : (s.respond r).mode = s.mode := rfl
@[simp] theorem respond_pwr : (s.respond r).pwr = s.pwr := rfl
@[simp] theorem respond_ce : (s.respond r).ce = s.ce := rfl
@[simp] theorem respond_txen : (s.respond r).txen = s.txen := rfl
@[simp] theorem respond_cfg : (s.respond r).cfg = s.cfg := rfl
@[simp] theorem respond_txbuf : (s.respond r).txbuf = s.txbuf := rfl
@[simp] theorem respond_budget : (s.respond r).budget = s.budget := rfl
@[simp] theorem respond_retx : (s.respond r).retx = s.retx := rfl
@[simp] theorem respond_deadline : (s.respond r).deadline = s.deadline := rfl
@[simp] theorem respond_out : (s.respond r).out = s.out := rfl
@[simp] theorem respond_mem : (s.respond r).mem = s.mem := rfl
@[simp] theorem respond_drIn : (s.respond r).drIn = s.drIn := rfl
@[simp] theorem respond_amIn : (s.respond r).amIn = s.amIn := rfl
@[simp] theorem respond_cdIn : (s.respond r).cdIn = s.cdIn := rfl
@[simp] theorem respond_now : (s.respond r).now = s.now := rfl
@[simp] theorem respond_inbox : (s.respond r).inbox = s.inbox := rfl
@[simp] theorem respond_ret : (s.respond r).ret = r := rfl

end

/-! ## emit -/

section
variable (s : State) (e : OutEvent)

@[simp] theorem emit_params : (s.emit e).params = s.params := rfl
@[simp] theorem emit_life : (s.emit e).life = s.life := rfl
@[simp] theorem emit_pend : (s.emit e).pend = s.pend := rfl
@[simp] theorem emit_mode : (s.emit e).mode = s.mode := rfl
@[simp] theorem emit_pwr : (s.emit e).pwr = s.pwr := rfl
@[simp] theorem emit_ce : (s.emit e).ce = s.ce := rfl
@[simp] theorem emit_txen : (s.emit e).txen = s.txen := rfl
@[simp] theorem emit_cfg : (s.emit e).cfg = s.cfg := rfl
@[simp] theorem emit_txbuf : (s.emit e).txbuf = s.txbuf := rfl
@[simp] theorem emit_budget : (s.emit e).budget = s.budget := rfl
@[simp] theorem emit_retx : (s.emit e).retx = s.retx := rfl
@[simp] theorem emit_deadline : (s.emit e).deadline = s.deadline := rfl
@[simp] theorem emit_out : (s.emit e).out = s.out ++ [e] := rfl
@[simp] theorem emit_mem : (s.emit e).mem = s.mem := rfl
@[simp] theorem emit_drIn : (s.emit e).drIn = s.drIn := rfl
@[simp] theorem emit_amIn : (s.emit e).amIn = s.amIn := rfl
@[simp] theorem emit_cdIn : (s.emit e).cdIn = s.cdIn := rfl
@[simp] theorem emit_now : (s.emit e).now = s.now := rfl
@[simp] theorem emit_inbox : (s.emit e).inbox = s.inbox := rfl
@[simp] theorem emit_ret : (s.emit e).ret = s.ret := rfl

end

/-! ## applyMode -/

section
variable (s : State) (m : Mode)

@[simp] theorem applyMode_params : (s.applyMode m).params = s.params := rfl
@[simp] theorem applyMode_life : (s.applyMode m).life = s.life := rfl
@[simp] theorem applyMode_pend : (s.applyMode m).pend = s.pend := rfl
@[simp] theorem applyMode_mode : (s.applyMode m).mode = m := rfl
@[simp] theorem applyMode_pwr : (s.applyMode m).pwr = driven s.params.bound.pwr (pinPwr m) s.pwr := rfl
@[simp] theorem applyMode_ce : (s.applyMode m).ce = driven s.params.bound.ce (pinCe m) s.ce := rfl
@[simp] theorem applyMode_txen : (s.applyMode m).txen = driven s.params.bound.txen (pinTxen m) s.txen := rfl
@[simp] theorem applyMode_cfg : (s.applyMode m).cfg = s.cfg := rfl
@[simp] theorem applyMode_txbuf : (s.applyMode m).txbuf = s.txbuf := rfl
@[simp] theorem applyMode_budget : (s.applyMode m).budget = s.budget := rfl
@[simp] theorem applyMode_retx : (s.applyMode m).retx = s.retx := rfl
@[simp] theorem applyMode_deadline : (s.applyMode m).deadline = s.deadline := rfl
@[simp] theorem applyMode_out : (s.applyMode m).out = s.out ++ [s.pinsEvent m] := rfl
@[simp] theorem applyMode_mem : (s.applyMode m).mem = s.mem := rfl
@[simp] theorem applyMode_drIn : (s.applyMode m).drIn = s.drIn := rfl
@[simp] theorem applyMode_amIn : (s.applyMode m).amIn = s.amIn := rfl
@[simp] theorem applyMode_cdIn : (s.applyMode m).cdIn = s.cdIn := rfl
@[simp] theorem applyMode_now : (s.applyMode m).now = s.now := rfl
@[simp] theorem applyMode_inbox : (s.applyMode m).inbox = s.inbox := rfl
@[simp] theorem applyMode_ret : (s.applyMode m).ret = s.ret := rfl

end

/-! ## memRead -/

section
variable (s : State) (cmd : Byte) (sp : Space) (a n : Nat)

@[simp] theorem memRead_params : (s.memRead cmd sp a n).params = s.params := rfl
@[simp] theorem memRead_life : (s.memRead cmd sp a n).life = s.life := rfl
@[simp] theorem memRead_pend : (s.memRead cmd sp a n).pend = s.pend := rfl
@[simp] theorem memRead_mode : (s.memRead cmd sp a n).mode = s.mode := rfl
@[simp] theorem memRead_pwr : (s.memRead cmd sp a n).pwr = s.pwr := rfl
@[simp] theorem memRead_ce : (s.memRead cmd sp a n).ce = s.ce := rfl
@[simp] theorem memRead_txen : (s.memRead cmd sp a n).txen = s.txen := rfl
@[simp] theorem memRead_cfg : (s.memRead cmd sp a n).cfg = s.cfg := rfl
@[simp] theorem memRead_txbuf : (s.memRead cmd sp a n).txbuf = s.txbuf := rfl
@[simp] theorem memRead_budget : (s.memRead cmd sp a n).budget = s.budget := rfl
@[simp] theorem memRead_retx : (s.memRead cmd sp a n).retx = s.retx := rfl
@[simp] theorem memRead_deadline : (s.memRead cmd sp a n).deadline = s.deadline := rfl
@[simp] theorem memRead_out : (s.memRead cmd sp a n).out = s.out ++ [.spiR cmd n (s.answer sp a n).toList] := rfl
@[simp] theorem memRead_mem : (s.memRead cmd sp a n).mem = s.memAfterRead sp a n := rfl
@[simp] theorem memRead_drIn : (s.memRead cmd sp a n).drIn = s.drIn := rfl
@[simp] theorem memRead_amIn : (s.memRead cmd sp a n).amIn = s.amIn := rfl
@[simp] theorem memRead_cdIn : (s.memRead cmd sp a n).cdIn = s.cdIn := rfl
@[simp] theorem memRead_now : (s.memRead cmd sp a n).now = s.now := rfl
@[simp] theorem memRead_inbox : (s.memRead cmd sp a n).inbox = s.inbox := rfl
@[simp] theorem memRead_ret : (s.memRead cmd sp a n).ret = s.ret := rfl

end

/-! ## memWrite -/

section
variable (s : State) (cmd : Byte) (sp : Space) (a : Nat) (v : List Byte)

@[simp] theorem memWrite_params : (s.memWrite cmd sp a v).params = s.params := rfl
@[simp] theorem memWrite_life : (s.memWrite cmd sp a v).life = s.life := rfl
@[simp] theorem memWrite_pend : (s.memWrite cmd sp a v).pend = s.pend := rfl
@[simp] theorem memWrite_mode : (s.memWrite cmd sp a v).mode = s.mode := rfl
@[simp] theorem memWrite_pwr : (s.memWrite cmd sp a v).pwr = s.pwr := rfl
@[simp] theorem memWrite_ce : (s.memWrite cmd sp a v).ce = s.ce := rfl
@[simp] theorem memWrite_txen : (s.memWrite cmd sp a v).txen = s.txen := rfl
@[simp] theorem memWrite_cfg : (s.memWrite cmd sp a v).cfg = s.cfg := rfl
@[simp] theorem memWrite_txbuf : (s.memWrite cmd sp a v).txbuf = s.txbuf := rfl
@[simp] theorem memWrite_budget : (s.memWrite cmd sp a v).budget = s.budget := rfl
@[simp] theorem memWrite_retx : (s.memWrite cmd sp a v).retx = s.retx := rfl
@[simp] theorem memWrite_deadline : (s.memWrite cmd sp a v).deadline = s.deadline := rfl
@[simp] theorem memWrite_out : (s.memWrite cmd sp a v).out = s.out ++ [.spiW cmd v] := rfl
@[simp] theorem memWrite_mem : (s.memWrite cmd sp a v).mem = s.mem.writeBytes (sp.key a) v := rfl
@[simp] theorem memWrite_drIn : (s.memWrite cmd sp a v).drIn = s.drIn := rfl
@[simp] theorem memWrite_amIn : (s.memWrite cmd sp a v).amIn = s.amIn := rfl
@[simp] theorem memWrite_cdIn : (s.memWrite cmd sp a v).cdIn = s.cdIn := rfl
@[simp] theorem memWrite_now : (s.memWrite cmd sp a v).now = s.now := rfl
@[simp] theorem memWrite_inbox : (s.memWrite cmd sp a v).inbox = s.inbox := rfl
@[simp] theorem memWrite_ret : (s.memWrite cmd sp a v).ret = s.ret := rfl

end

/-! ## sample -/

section
variable (s : State) (c : Slot) (rest : List Slot)

@[simp] theorem sample_params : (s.sample c rest).params = s.params := rfl
@[simp] theorem sample_life : (s.sample c rest).life = s.life := rfl
@[simp] theorem sample_pend : (s.sample c rest).pend = s.pend := rfl
@[simp] theorem sample_mode : (s.sample c rest).mode = s.mode := rfl
@[simp] theorem sample_pwr : (s.sample c rest).pwr = s.pwr := rfl
@[simp] theorem sample_ce : (s.sample c rest).ce = s.ce := rfl
@[simp] theorem sample_txen : (s.sample c rest).txen = s.txen := rfl
@[simp] theorem sample_cfg : (s.sample c rest).cfg = s.cfg := rfl
@[simp] theorem sample_txbuf : (s.sample c rest).txbuf = s.txbuf := rfl
@[simp] theorem sample_budget : (s.sample c rest).budget = s.budget := rfl
@[simp] theorem sample_retx : (s.sample c rest).retx = s.retx := rfl
@[simp] theorem sample_deadline : (s.sample c rest).deadline = s.deadline := rfl
@[simp] theorem sample_out : (s.sample c rest).out = s.out := rfl
@[simp] theorem sample_mem : (s.sample c rest).mem = s.mem.radioWrites c.radio := rfl
@[simp] theorem sample_drIn : (s.sample c rest).drIn = c.dr := rfl
@[simp] theorem sample_amIn : (s.sample c rest).amIn = c.am := rfl
@[simp] theorem sample_cdIn : (s.sample c rest).cdIn = c.cd := rfl
@[simp] theorem sample_now : (s.sample c rest).now = c.now := rfl
@[simp] theorem sample_inbox : (s.sample c rest).inbox = rest := rfl
@[simp] theorem sample_ret : (s.sample c rest).ret = s.ret := rfl

end

/-! ## create, powerOn -/

section
variable (p : Params) (radio : Memory)

@[simp] theorem create_params : (create p radio).params = p := rfl
@[simp] theorem create_life : (create p radio).life = .uninit := rfl
@[simp] theorem create_pend : (create p radio).pend = .none := rfl
@[simp] theorem create_mode : (create p radio).mode = .powerDown := rfl
@[simp] theorem create_pwr : (create p radio).pwr = false := rfl
@[simp] theorem create_ce : (create p radio).ce = false := rfl
@[simp] theorem create_txen : (create p radio).txen = false := rfl
@[simp] theorem create_cfg : (create p radio).cfg = zeroConfig := rfl
@[simp] theorem create_txbuf : (create p radio).txbuf = Vector.replicate 16 0 := rfl
@[simp] theorem create_budget : (create p radio).budget = 0 := rfl
@[simp] theorem create_retx : (create p radio).retx = 0 := rfl
@[simp] theorem create_deadline : (create p radio).deadline = 0 := rfl
@[simp] theorem create_out : (create p radio).out = [] := rfl
@[simp] theorem create_mem : (create p radio).mem = radio := rfl
@[simp] theorem create_drIn : (create p radio).drIn = false := rfl
@[simp] theorem create_amIn : (create p radio).amIn = false := rfl
@[simp] theorem create_cdIn : (create p radio).cdIn = false := rfl
@[simp] theorem create_now : (create p radio).now = 0 := rfl
@[simp] theorem create_inbox : (create p radio).inbox = [] := rfl
@[simp] theorem create_ret : (create p radio).ret = .nothing := rfl
@[simp] theorem powerOn_eq : powerOn p = create p [] := rfl

end

/-! ## resetBlock -/

section
variable (s : State)

@[simp] theorem resetBlock_params : s.resetBlock.params = s.params := rfl
@[simp] theorem resetBlock_life : s.resetBlock.life = .uninit := rfl
@[simp] theorem resetBlock_pend : s.resetBlock.pend = .none := rfl
@[simp] theorem resetBlock_mode : s.resetBlock.mode = .powerDown := rfl
@[simp] theorem resetBlock_pwr : s.resetBlock.pwr = false := rfl
@[simp] theorem resetBlock_ce : s.resetBlock.ce = false := rfl
@[simp] theorem resetBlock_txen : s.resetBlock.txen = false := rfl
@[simp] theorem resetBlock_cfg : s.resetBlock.cfg = zeroConfig := rfl
@[simp] theorem resetBlock_txbuf : s.resetBlock.txbuf = Vector.replicate 16 0 := rfl
@[simp] theorem resetBlock_budget : s.resetBlock.budget = 0 := rfl
@[simp] theorem resetBlock_retx : s.resetBlock.retx = 0 := rfl
@[simp] theorem resetBlock_deadline : s.resetBlock.deadline = 0 := rfl
@[simp] theorem resetBlock_out : s.resetBlock.out = [] := rfl
@[simp] theorem resetBlock_mem : s.resetBlock.mem = s.mem := rfl
@[simp] theorem resetBlock_drIn : s.resetBlock.drIn = s.drIn := rfl
@[simp] theorem resetBlock_amIn : s.resetBlock.amIn = s.amIn := rfl
@[simp] theorem resetBlock_cdIn : s.resetBlock.cdIn = s.cdIn := rfl
@[simp] theorem resetBlock_now : s.resetBlock.now = s.now := rfl
@[simp] theorem resetBlock_inbox : s.resetBlock.inbox = s.inbox := rfl
@[simp] theorem resetBlock_ret : s.resetBlock.ret = .nothing := rfl

end

/-! ## The transactions, and an error result -/

section
variable (s : State)

@[simp] theorem raise_eq (e : Result) : s.raise e = s.respond (.result e) := rfl
@[simp] theorem readConfig_eq (a : BitVec 4) :
    s.readConfig a = s.memRead (withStart s.params.spi.rConfig a) .config a.toNat 10 := rfl
@[simp] theorem writeConfig_eq (a : BitVec 4) (img : Bytes 10) :
    s.writeConfig a img = s.memWrite (withStart s.params.spi.wConfig a) .config a.toNat img.toList := rfl
@[simp] theorem writeTxAddress_eq (addr : BitVec 32) :
    s.writeTxAddress addr = s.memWrite s.params.spi.wTxAddress .txAddr 0 (addrBytes s.params.addrLsbFirst addr) := rfl
@[simp] theorem writeTxPayload_eq (f : Bytes 16) :
    s.writeTxPayload f = s.memWrite s.params.spi.wTxPayload .txPl 0 f.toList := rfl
@[simp] theorem readRxPayload_eq :
    s.readRxPayload = s.memRead s.params.spi.rRxPayload .rxPl 0 16 := rfl

@[simp] theorem memAfterRead_rxPl (a n : Nat) : s.memAfterRead .rxPl a n = s.mem.forget (Space.rxPl.key a) n := rfl
@[simp] theorem memAfterRead_config (a n : Nat) : s.memAfterRead .config a n = s.mem := rfl

/-- The Pins event of a SETMODE depends on which pins are bound, and on nothing else. -/
theorem pinsEvent_congr {s s' : State} (h : s.params = s'.params) (m : Mode) : s.pinsEvent m = s'.pinsEvent m := by
  simp only [pinsEvent, h]

@[simp] theorem respond_pinsEvent (r : Response) (m : Mode) : (s.respond r).pinsEvent m = s.pinsEvent m := rfl
@[simp] theorem applyMode_pinsEvent (m' m : Mode) : (s.applyMode m').pinsEvent m = s.pinsEvent m := rfl
@[simp] theorem memRead_pinsEvent (cmd : Byte) (sp : Space) (a n : Nat) (m : Mode) :
    (s.memRead cmd sp a n).pinsEvent m = s.pinsEvent m := rfl
@[simp] theorem memWrite_pinsEvent (cmd : Byte) (sp : Space) (a : Nat) (v : List Byte) (m : Mode) :
    (s.memWrite cmd sp a v).pinsEvent m = s.pinsEvent m := rfl

/-- What the radio answers depends on what it holds and, for the free values, on how many events OUT holds. -/
theorem answer_congr {s s' : State} (hm : s.mem = s'.mem) (ho : s.out.length = s'.out.length) (sp : Space) (a n : Nat) :
    s.answer sp a n = s'.answer sp a n := by
  simp only [answer, radioByte, hm, ho]

end

end Sys2Proof.Machine.State
end

