-- ==== Sys2Proof/Laws/Exec.lean ====
section
/-! SUPPORT. What each meaning can do, said once: for every instruction, one lemma that lists the next states it can give and
the conditions of each. Later proofs cite these and do not unfold a meaning. -/

namespace Sys2Proof.Machine

/-! ## Pins -/

@[simp] theorem driven_true (v old : Bool) : driven true v old = v := rfl
@[simp] theorem driven_false (v old : Bool) : driven false v old = old := rfl
@[simp] theorem shown_true (v : Bool) : shown true v = some v := rfl
@[simp] theorem shown_false (v : Bool) : shown false v = none := rfl

/-- The last write of a pin decides its level. -/
@[simp] theorem driven_driven (b v w old : Bool) : driven b v (driven b w old) = driven b v old := by
  cases b <;> rfl

theorem mandatory_iff (b : Bound) : b.mandatory = true ↔ b.pwr = true ∧ b.ce = true ∧ b.txen = true := by
  simp [Bound.mandatory, and_assoc]

/-- SETMODE drives each bound pin to its column of the row of the mode. -/
theorem applyMode_row (m : Mode) (s : State) :
    (s.params.bound.pwr = true → (s.applyMode m).pwr = pinPwr m) ∧
    (s.params.bound.ce = true → (s.applyMode m).ce = pinCe m) ∧
    (s.params.bound.txen = true → (s.applyMode m).txen = pinTxen m) :=
  ⟨fun h => by simp [h], fun h => by simp [h], fun h => by simp [h]⟩

/-- TXEN is asserted in no mode without PWR and CE. -/
theorem pinTxen_implies (m : Mode) (h : pinTxen m = true) : pinPwr m = true ∧ pinCe m = true := by
  cases m <;> simp_all [pinTxen, pinPwr, pinCe]

/-! ## The data-ready level -/

theorem dr_eq_true (s : State) : s.dr = true ↔ s.params.bound.dr = true ∧ s.drIn = true := by simp [State.dr]

theorem dr_eq_false (s : State) : s.dr = false ↔ s.params.bound.dr = false ∨ s.drIn = false := by
  cases h : s.params.bound.dr <;> simp [State.dr, h]

/-! ## Host commands -/

theorem execSetMode_next {m : Mode} {s t : State} (h : execSetMode m s = .next t) :
    t = (s.applyMode m).respond .nothing := by cases h; rfl

/-- INIT: MissingPin, RegisterMismatch or Ok. -/
theorem execInit_next {cfg : RadioConfig} {s t : State} (h : execInit cfg s = .next t) :
    s.life = .uninit ∧ cfg.wf = true ∧
    (s.params.bound.mandatory = false ∧ t = s.initFail .missingPin ∨
     s.params.bound.mandatory = true ∧ s.params.validate.accepts s.initAnswer = false ∧
       t = s.initReadBack.initFail .registerMismatch ∨
     s.params.bound.mandatory = true ∧ s.params.validate.accepts s.initAnswer = true ∧
       t = s.initReadBack.initFinish cfg) := by
  unfold execInit at h
  split at h
  · cases h
  · next h1 =>
    split at h
    · cases h
    · next h2 =>
      refine ⟨by simpa using h1, by simpa using h2, ?_⟩
      split at h
      · next h3 => cases h; exact .inl ⟨h3, rfl⟩
      · next h3 =>
        have h3 : s.params.bound.mandatory = true := by simpa using h3
        split at h
        · next h4 => cases h; exact .inr (.inl ⟨h3, h4, rfl⟩)
        · next h4 => cases h; exact .inr (.inr ⟨h3, by simpa using h4, rfl⟩)

/-- STARTTX: Busy, or accepted. -/
theorem execStartTx_next {f : Frame} {b : Byte} {s t : State} (h : execStartTx f b s = .next t) :
    s.life = .ready ∧
    (s.pend ≠ .none ∧ t = s.respond (.result .busy) ∨ s.pend = .none ∧ t = s.startTransmit f b) := by
  unfold execStartTx at h
  split at h
  · cases h
  · next h1 =>
    refine ⟨by simpa using h1, ?_⟩
    split at h
    · next h2 => cases h; exact .inl ⟨by simpa [State.busy] using h2, rfl⟩
    · next h2 => cases h; exact .inr ⟨by simpa [State.busy] using h2, rfl⟩

/-- POLL: one of its nine arms. -/
theorem execPoll_next {s t : State} (h : execPoll s = .next t) :
    s.life = .ready ∧
    (s.pend = .txBusy ∧
      (s.dr = false ∧ t = s.pollIdle ∨
       s.dr = true ∧ s.repeatsRemain = true ∧ t = s.pollRepeat ∨
       s.dr = true ∧ s.repeatsRemain = false ∧ replyExpected s.budget = true ∧ t = s.pollTurnAround ∨
       s.dr = true ∧ s.repeatsRemain = false ∧ replyExpected s.budget = false ∧ t = s.pollDone) ∨
     s.pend = .rxWait ∧
      (s.dr = true ∧ t = s.pollReply ∨
       s.dr = false ∧ s.deadlineReached = true ∧ t = s.pollTimeout ∨
       s.dr = false ∧ s.deadlineReached = false ∧ t = s.pollIdle) ∨
     s.pend = .none ∧
      (s.mode = .receive ∧ s.dr = true ∧ t = s.pollUnsolicited ∨
       ¬ (s.mode = .receive ∧ s.dr = true) ∧ t = s.pollIdle)) := by
  unfold execPoll at h
  split at h
  · cases h
  · next h1 =>
    refine ⟨by simpa using h1, ?_⟩
    split at h
    · next hp =>
      cases h; refine .inl ⟨hp, ?_⟩
      unfold State.pollTxBusy
      split
      · next h2 => exact .inl ⟨h2, rfl⟩
      · next h2 =>
        have h2 : s.dr = true := by simpa using h2
        split
        · next h3 => exact .inr (.inl ⟨h2, h3, rfl⟩)
        · next h3 =>
          have h3 : s.repeatsRemain = false := by simpa using h3
          split
          · next h4 => exact .inr (.inr (.inl ⟨h2, h3, h4, rfl⟩))
          · next h4 => exact .inr (.inr (.inr ⟨h2, h3, by simpa using h4, rfl⟩))
    · next hp =>
      cases h; refine .inr (.inl ⟨hp, ?_⟩)
      unfold State.pollRxWait
      split
      · next h2 => exact .inl ⟨h2, rfl⟩
      · next h2 =>
        have h2 : s.dr = false := by simpa using h2
        split
        · next h3 => exact .inr (.inl ⟨h2, h3, rfl⟩)
        · next h3 => exact .inr (.inr ⟨h2, by simpa using h3, rfl⟩)
    · next hp =>
      cases h; refine .inr (.inr ⟨hp, ?_⟩)
      unfold State.pollNone
      split
      · next h2 => exact .inl ⟨h2.1, h2.2, rfl⟩
      · next h2 => exact .inr ⟨h2, rfl⟩

/-- INIT with a mandatory pin unbound. -/
theorem execInit_missingPin {cfg : RadioConfig} {s : State} (h1 : s.life = .uninit) (h2 : cfg.wf = true)
    (h3 : s.params.bound.mandatory = false) : execInit cfg s = .next (s.initFail .missingPin) := by
  simp [execInit, h1, h2, h3]

/-- INIT with a read-back that fails. -/
theorem execInit_mismatch {cfg : RadioConfig} {s : State} (h1 : s.life = .uninit) (h2 : cfg.wf = true)
    (h3 : s.params.bound.mandatory = true) (h4 : s.params.validate.accepts s.initAnswer = false) :
    execInit cfg s = .next (s.initReadBack.initFail .registerMismatch) := by
  simp [execInit, h1, h2, h3, h4]

/-- INIT with a read-back that passes. -/
theorem execInit_ok {cfg : RadioConfig} {s : State} (h1 : s.life = .uninit) (h2 : cfg.wf = true)
    (h3 : s.params.bound.mandatory = true) (h4 : s.params.validate.accepts s.initAnswer = true) :
    execInit cfg s = .next (s.initReadBack.initFinish cfg) := by
  simp [execInit, h1, h2, h3, h4]

/-- STARTTX with something pending. -/
theorem execStartTx_busy {f : Frame} {b : Byte} {s : State} (h1 : s.life = .ready) (h2 : s.pend ≠ .none) :
    execStartTx f b s = .next (s.respond (.result .busy)) := by
  simp [execStartTx, State.busy, h1, h2]

/-- STARTTX with nothing pending. -/
theorem execStartTx_accepted {f : Frame} {b : Byte} {s : State} (h1 : s.life = .ready) (h2 : s.pend = .none) :
    execStartTx f b s = .next (s.startTransmit f b) := by
  simp [execStartTx, State.busy, h1, h2]

/-- POLL while a transmission is pending. -/
theorem execPoll_txBusy {s : State} (h1 : s.life = .ready) (h2 : s.pend = .txBusy) :
    execPoll s = .next s.pollTxBusy := by simp [execPoll, h1, h2]

/-- POLL in the reply wait. -/
theorem execPoll_rxWait {s : State} (h1 : s.life = .ready) (h2 : s.pend = .rxWait) :
    execPoll s = .next s.pollRxWait := by simp [execPoll, h1, h2]

/-- POLL with nothing pending. -/
theorem execPoll_none {s : State} (h1 : s.life = .ready) (h2 : s.pend = .none) :
    execPoll s = .next s.pollNone := by simp [execPoll, h1, h2]

theorem execEncodeFrame_next {f : Frame} {s t : State} (h : execEncodeFrame f s = .next t) :
    t = s.respond (.bytes f.encode) := by cases h; rfl

/-- DECODE: BadLength, or the frame. -/
theorem execDecodeBytes_next {bs : List Byte} {s t : State} (h : execDecodeBytes bs s = .next t) :
    exactly 16 bs = none ∧ t = s.respond (.result .badLength) ∨
    ∃ b, exactly 16 bs = some b ∧ t = s.respond (.frame (Frame.decode16 b)) := by
  unfold execDecodeBytes at h
  split at h
  · next hb => cases h; exact .inl ⟨hb, rfl⟩
  · next b hb => cases h; exact .inr ⟨b, hb, rfl⟩

/-! ## Transactions -/

/-- Ten bytes of CONFIG lie inside it from start address 0 only. -/
theorem config_holds_iff (a : BitVec 4) : Space.config.holds a.toNat 10 = true ↔ a = 0 := by
  rw [Memory.holds_iff]
  simp only [Space.size]
  constructor
  · intro h; apply BitVec.eq_of_toNat_eq; simp only [BitVec.ofNat_eq_ofNat, BitVec.toNat_ofNat]; omega
  · rintro rfl; simp

theorem execWConfig_next {a : BitVec 4} {img : Bytes 10} {s t : State} (h : execWConfig a img s = .next t) :
    a = 0 ∧ t = (s.writeConfig a img).respond .nothing := by
  unfold execWConfig at h
  split at h
  · next ha => cases h; exact ⟨(config_holds_iff a).1 ha, rfl⟩
  · cases h

theorem execRConfig_next {a : BitVec 4} {s t : State} (h : execRConfig a s = .next t) :
    a = 0 ∧ t = (s.readConfig a).respond (.data (s.configAnswer a.toNat).toList) := by
  unfold execRConfig at h
  split at h
  · next ha => cases h; exact ⟨(config_holds_iff a).1 ha, rfl⟩
  · cases h

/-- W_CONFIG at the start address the block uses. -/
theorem execWConfig_zero (img : Bytes 10) (s : State) :
    execWConfig 0 img s = .next ((s.writeConfig 0 img).respond .nothing) := if_pos ((config_holds_iff 0).2 rfl)

/-- R_CONFIG at the start address the block uses. -/
theorem execRConfig_zero (s : State) :
    execRConfig 0 s = .next ((s.readConfig 0).respond (.data (s.configAnswer 0).toList)) :=
  if_pos ((config_holds_iff 0).2 rfl)

theorem execWTxPayload_next {f : Bytes 16} {s t : State} (h : execWTxPayload f s = .next t) :
    t = (s.writeTxPayload f).respond .nothing := by cases h; rfl

theorem execWTxAddress_next {a : BitVec 32} {s t : State} (h : execWTxAddress a s = .next t) :
    t = (s.writeTxAddress a).respond .nothing := by cases h; rfl

theorem execRRxPayload_next {s t : State} (h : execRRxPayload s = .next t) :
    t = s.readRxPayload.respond (.data s.rxAnswer.toList) := by cases h; rfl

/-- The start address 0 leaves the command byte as it is. -/
@[simp] theorem withStart_zero (code : Byte) : withStart code 0#4 = code := by
  simp [withStart]

/-! ## Wire frames -/

/-- The codec carries a frame in one way, whatever its row. -/
theorem exec_ofFrame (c : FrameCommand) (b : FrameBody) (s : State) :
    exec (Instr.ofFrame c b) s = .next (s.carry (b.withCommand c.code)) := by cases c <;> rfl

/-- An instruction at the frame face is the row of some command code. -/
theorem eq_ofFrame_of_port {i : Instr} (h : i.port = .frame) : ∃ c b, i = Instr.ofFrame c b := by
  cases i <;> first
    | exact nomatch (show Port.host = Port.frame from h)
    | exact nomatch (show Port.spi = Port.frame from h)
    | exact ⟨.setVoltage, _, rfl⟩ | exact ⟨.setSpeed, _, rfl⟩ | exact ⟨.setTimer, _, rfl⟩
    | exact ⟨.networkJoinRequest, _, rfl⟩ | exact ⟨.setSpeedReply, _, rfl⟩ | exact ⟨.networkJoinOpen, _, rfl⟩
    | exact ⟨.fanSettings, _, rfl⟩ | exact ⟨.networkJoinAck, _, rfl⟩ | exact ⟨.queryNetwork, _, rfl⟩
    | exact ⟨.queryDevice, _, rfl⟩ | exact ⟨.setVoltageReply, _, rfl⟩

/-- What exec can do, the frame rows taken together: the case split for a claim about every instruction. -/
theorem exec_cases {P : Instr → Prop} (hostInit : ∀ cfg, P (.init cfg)) (setMode : ∀ m, P (.setMode m))
    (startTx : ∀ f b, P (.startTx f b)) (poll : P .poll) (encodeFrame : ∀ f, P (.encodeFrame f))
    (decodeBytes : ∀ bs, P (.decodeBytes bs)) (wConfig : ∀ a img, P (.wConfig a img)) (rConfig : ∀ a, P (.rConfig a))
    (wTxPayload : ∀ f, P (.wTxPayload f)) (wTxAddress : ∀ a, P (.wTxAddress a)) (rRxPayload : P .rRxPayload)
    (frame : ∀ c b, P (.ofFrame c b)) (i : Instr) : P i := by
  by_cases h : i.port = .frame
  · obtain ⟨c, b, rfl⟩ := eq_ofFrame_of_port h; exact frame c b
  · cases i <;> first | exact absurd rfl h | apply_assumption

/-! ## The step -/

/-- A step: nothing to do, an instruction run, or an unlisted frame carried. -/
theorem step_next {s t : State} (h : step s = .next t) :
    s.inbox = [] ∧ t = s ∨
    ∃ c rest, s.inbox = c :: rest ∧
      ((∃ i, decode s.params c.port c.bytes = .ok i ∧ exec i (s.sample c rest) = .next t) ∨
       ∃ f, decode s.params c.port c.bytes = .error (.unlistedFrame f) ∧ t = (s.sample c rest).carry f) := by
  unfold step at h
  split at h
  · next hf =>
    unfold State.fetch at hf
    split at hf
    · next hi => cases h; exact .inl ⟨hi, rfl⟩
    · split at hf <;> cases hf
  · next hf =>
    unfold State.fetch at hf
    split at hf
    · cases hf
    · next c rest hi =>
      split at hf <;> cases hf
      next hd => exact .inr ⟨c, rest, hi, .inl ⟨_, hd, h⟩⟩
  · next hf =>
    unfold State.fetch at hf
    split at hf
    · cases hf
    · next c rest hi =>
      split at hf <;> cases hf
      next hd => cases h; exact .inr ⟨c, rest, hi, .inr ⟨_, hd, rfl⟩⟩
  · cases h

/-- Sampling leaves the memory in its canonical form. -/
theorem sample_wf {s : State} (c : Slot) (rest : List Slot) (h : s.mem.wf) : (s.sample c rest).mem.wf :=
  Memory.wf_radioWrites _ h

/-- A write inside its space leaves the memory in its canonical form. -/
theorem memWrite_wf {s : State} (cmd : Byte) (sp : Space) {a : Nat} {v : List Byte} (hv : sp.holds a v.length = true)
    (h : s.mem.wf) : (s.memWrite cmd sp a v).mem.wf :=
  Memory.wf_writeBytes v (fun _ hi => Memory.mapped_key hv hi) h

/-- A read leaves the memory in its canonical form. -/
theorem memRead_wf {s : State} (cmd : Byte) (sp : Space) (a n : Nat) (h : s.mem.wf) :
    (s.memRead cmd sp a n).mem.wf := by
  cases sp <;> first | exact h | exact Memory.wf_forget _ _ h

end Sys2Proof.Machine
end

