-- ==== Sys2Proof/Laws/PerInstr.lean ====
section
/-! SUPPORT. Laws stated of every instruction, one lemma per constructor. -/

namespace Sys2Proof.Laws.EncodedLength

/-- How many bytes each row has: the "length" column of spec/30_encoding.md R76 for a host command, one command byte and
the data bytes of R70 for a transaction, 16 for a wire frame (R61). -/
def bytes : Instr → Nat
  | .init _ => 15
  | .setMode _ => 2
  | .startTx _ _ => 18
  | .poll => 1
  | .encodeFrame _ => 17
  | .decodeBytes bs => 2 + bs.length
  | .wConfig _ _ | .rConfig _ => 11
  | .wTxPayload _ | .rRxPayload => 17
  | .wTxAddress _ => 5
  | .frameSetVoltage _ | .frameSetSpeed _ | .frameSetTimer _ | .frameNetworkJoinRequest _ | .frameSetSpeedReply _
  | .frameNetworkJoinOpen _ | .frameFanSettings _ | .frameNetworkJoinAck _ | .frameQueryNetwork _
  | .frameQueryDevice _ | .frameSetVoltageReply _ => 16

/-- The encoder gives each row the number of bytes the spec does. -/
def Statement (i : Instr) : Prop := ∀ p : Params, (encode p i).length = bytes i

/-- A command byte before a string of fixed length. -/
theorem cons_toList (n : Nat) (c : Byte) (v : Bytes n) : (c :: v.toList).length = 1 + n := by
  rw [List.length_cons, Vector.length_toList, Nat.add_comm]

/-- A wire frame has 16 bytes. -/
theorem length_frameBytes (c : FrameCommand) (b : FrameBody) : (frameBytes c b).length = 16 :=
  Vector.length_toList

theorem init (cfg : RadioConfig) : Statement (.init cfg) := fun p => by
  show (_ :: (Vector.toList _ ++ addrBytes _ _)).length = 15
  rw [List.length_cons, List.length_append, Vector.length_toList, length_addrBytes]
theorem setMode (m : Mode) : Statement (.setMode m) := fun _ => rfl
theorem startTx (frame : Frame) (budget : Byte) : Statement (.startTx frame budget) := fun p => by
  show (_ :: (Vector.toList _ ++ [_])).length = 18
  rw [List.length_cons, List.length_append, Vector.length_toList]; rfl
theorem poll : Statement .poll := fun _ => rfl
theorem encodeFrame (frame : Frame) : Statement (.encodeFrame frame) := fun _ => cons_toList 16 _ _
theorem decodeBytes (bs : List Byte) : Statement (.decodeBytes bs) := fun _ => Nat.add_comm bs.length 2
theorem wConfig (a : BitVec 4) (img : Bytes 10) : Statement (.wConfig a img) := fun _ => cons_toList 10 _ _
theorem rConfig (a : BitVec 4) : Statement (.rConfig a) := fun _ => rfl
theorem wTxPayload (f : Bytes 16) : Statement (.wTxPayload f) := fun _ => cons_toList 16 _ _
theorem wTxAddress (a : BitVec 32) : Statement (.wTxAddress a) := fun p =>
  congrArg Nat.succ (length_addrBytes p.addrLsbFirst a)
theorem rRxPayload : Statement .rRxPayload := fun _ => rfl
theorem frameSetVoltage (b : FrameBody) : Statement (.frameSetVoltage b) := fun _ => length_frameBytes _ _
theorem frameSetSpeed (b : FrameBody) : Statement (.frameSetSpeed b) := fun _ => length_frameBytes _ _
theorem frameSetTimer (b : FrameBody) : Statement (.frameSetTimer b) := fun _ => length_frameBytes _ _
theorem frameNetworkJoinRequest (b : FrameBody) : Statement (.frameNetworkJoinRequest b) := fun _ => length_frameBytes _ _
theorem frameSetSpeedReply (b : FrameBody) : Statement (.frameSetSpeedReply b) := fun _ => length_frameBytes _ _
theorem frameNetworkJoinOpen (b : FrameBody) : Statement (.frameNetworkJoinOpen b) := fun _ => length_frameBytes _ _
theorem frameFanSettings (b : FrameBody) : Statement (.frameFanSettings b) := fun _ => length_frameBytes _ _
theorem frameNetworkJoinAck (b : FrameBody) : Statement (.frameNetworkJoinAck b) := fun _ => length_frameBytes _ _
theorem frameQueryNetwork (b : FrameBody) : Statement (.frameQueryNetwork b) := fun _ => length_frameBytes _ _
theorem frameQueryDevice (b : FrameBody) : Statement (.frameQueryDevice b) := fun _ => length_frameBytes _ _
theorem frameSetVoltageReply (b : FrameBody) : Statement (.frameSetVoltageReply b) := fun _ => length_frameBytes _ _

end Sys2Proof.Laws.EncodedLength
end

