-- ==== Sys2Proof/Machine/HostContract.lean ====
section
/-! DEFINITION. The host (ProtocolEngine) as the block's contract partner (spec/45_host_protocol.md): its states, its
transition table, the frame it builds and its test of a reply. None of this is part of the block (R4, R150: "A rule in
this file constrains the host, never the block"), and no definition of the machine uses it. -/

namespace Sys2Proof.HostContract

/-- ProtocolState, nine values (R150). -/
inductive ProtocolState where
  | startup
  | startDiscovery
  | discoveryWaitForLinkRequest
  | discoveryWaitForJoinResponse
  | discoveryJoinComplete
  | idle
  | waitQueryResponse
  | waitSetSpeedResponse
  | waitSetSpeedConfirm
  deriving DecidableEq, Repr

/-- The triggers of the table of R152; `none` is the table's dash. -/
inductive Trigger where
  | none
  | radioInitialized
  | userDiscovery
  | joinOpenReceived
  | timeoutRetriesRemain
  | retriesExhausted
  | acknowledgementReceived
  | userQuery
  | userSetSpeed
  | matchingReply
  deriving DecidableEq, Repr

/-- The actions of the table of R152. -/
inductive Action where
  | none
  | generateDeviceId
  | broadcastJoinRequest
  | recordNetworkIdSendJoinAck
  | rebroadcastJoinRequest
  | reportDiscoveryFailure
  | storeMainUnit
  | reportDiscoverySuccess
  | transmitQuery
  | transmitSetSpeed
  | deliverResult
  | resendLastFrame
  | surfaceFailure
  deriving DecidableEq, Repr

/-- The states "any Wait*" of rows H12 and H13 surely means; whether the discovery waits are among them is not said
(R153). -/
def ProtocolState.waits : ProtocolState → Bool
  | .waitQueryResponse | .waitSetSpeedResponse | .waitSetSpeedConfirm => true
  | .startup | .startDiscovery | .discoveryWaitForLinkRequest | .discoveryWaitForJoinResponse | .discoveryJoinComplete
  | .idle => false

/-- The rows H1 to H11 of R152; none where they give nothing (R153). -/
def rows : ProtocolState → Trigger → Option (ProtocolState × Action)
  | .startup, .radioInitialized => some (.idle, .none)
  | .idle, .userDiscovery => some (.startDiscovery, .generateDeviceId)
  | .startDiscovery, .none => some (.discoveryWaitForLinkRequest, .broadcastJoinRequest)
  | .discoveryWaitForLinkRequest, .joinOpenReceived => some (.discoveryWaitForJoinResponse, .recordNetworkIdSendJoinAck)
  | .discoveryWaitForLinkRequest, .timeoutRetriesRemain => some (.discoveryWaitForLinkRequest, .rebroadcastJoinRequest)
  | .discoveryWaitForLinkRequest, .retriesExhausted => some (.idle, .reportDiscoveryFailure)
  | .discoveryWaitForJoinResponse, .acknowledgementReceived => some (.discoveryJoinComplete, .storeMainUnit)
  | .discoveryJoinComplete, .none => some (.idle, .reportDiscoverySuccess)
  | .idle, .userQuery => some (.waitQueryResponse, .transmitQuery)
  | .idle, .userSetSpeed => some (.waitSetSpeedResponse, .transmitSetSpeed)
  | .waitQueryResponse, .matchingReply => some (.idle, .deliverResult)
  | .waitSetSpeedResponse, .matchingReply => some (.waitSetSpeedConfirm, .deliverResult)
  | _, _ => none

/-- The host's next state and action (R152), rows H12 and H13 for the states that wait. -/
def next (s : ProtocolState) (t : Trigger) : Option (ProtocolState × Action) :=
  match s.waits, t with
  | true, .timeoutRetriesRemain => some (s, .resendLastFrame)
  | true, .retriesExhausted => some (.idle, .surfaceFailure)
  | _, _ => rows s t

/-- NetworkIdentity (R151): this controller's id, the discovered main unit's id and type, the network address. -/
structure NetworkIdentity where
  deviceId     : Byte
  mainUnitId   : Byte
  mainUnitType : Byte
  network      : BitVec 32
  deriving DecidableEq, Repr

/-- The set-speed frame (R65, R163): destination type MainUnit, ttl 250, command SetSpeed, payload byte 0 the preset. Its
source type and its nine other payload bytes are not given (R163): they are operands. -/
def setSpeedFrame (id : NetworkIdentity) (srcType : Byte) (preset : SpeedPreset) (rest : Bytes 9) : Frame where
  dstType := DeviceType.mainUnit.code
  dstId := id.mainUnitId
  srcType := srcType
  srcId := id.deviceId
  ttl := Config.ttlDefault
  command := FrameCommand.setSpeed.code
  payload := ⟨⟨preset.code :: rest.toList⟩, by simp⟩

/-- "source device type/id equal the expected responder, command code equal the expected reply code for the outstanding
request, and — where applicable — ttl not expired" (R155), an expired ttl read as 0, the reading R155 itself calls natural.
DESIGN CHOICE (log entry 24): the spec does not say to which replies the ttl test applies; here it applies to every
reply. -/
def matchesReply (responderType responderId reply : Byte) (f : Frame) : Bool :=
  f.srcType == responderType && f.srcId == responderId && f.command == reply && f.ttl != 0

/-- The Frame invariant of the originator: "ttl must never be written as zero" (R141, R223). -/
def keepsTtl (f : Frame) : Bool := f.ttl != 0

end Sys2Proof.HostContract
end

