-- ==== Sys2Proof/Machine/Script.lean ====
section
/-! DEFINITION. The script syntax of spec/30_encoding.md R81, in which the spec writes its programs down: the line of each
host command. Like Machine/HostContract.lean it is apart from the machine, and no definition of the machine uses it. -/

namespace Sys2Proof.Script

/-- A hexadecimal digit. -/
def digit (n : Nat) : Char := ['0', '1', '2', '3', '4', '5', '6', '7', '8', '9', 'A', 'B', 'C', 'D', 'E', 'F'].getD n '0'

/-- A byte as two hexadecimal digits. -/
def byte (b : Byte) : List Char := [digit (b.toNat / 16), digit (b.toNat % 16)]

/-- The bytes of a string, a space between them. -/
def bytes (bs : List Byte) : List Char := List.intercalate [' '] (bs.map byte)

/-- Text in braces. -/
def braces (cs : List Char) : List Char := [Char.ofNat 123] ++ cs ++ [Char.ofNat 125]

/-- The name of a mode (R11). -/
def mode : Mode → List Char
  | .powerDown => "PowerDown".toList
  | .standby   => "Standby".toList
  | .idle      => "Idle".toList
  | .receive   => "Receive".toList
  | .transmit  => "Transmit".toList

/-- A named field of a frame. -/
def field (name : String) (b : Byte) : List Char := name.toList ++ "=0x".toList ++ byte b ++ ", ".toList

/-- The fields of a frame. -/
def fields (f : Frame) : List Char :=
  braces (field "dst_type" f.dstType ++ field "dst_id" f.dstId ++ field "src_type" f.srcType ++ field "src_id" f.srcId
    ++ field "ttl" f.ttl ++ field "command" f.command ++ "payload=<".toList ++ bytes f.payload.toList ++ ['>'])

/-- The line of a host command: `cfgName` is the name the text gives INIT's record, `dr` and `now` the inputs a POLL
samples. A transaction or a wire frame has no line (R81). -/
def line (cfgName : List Char) (dr : Bool) (now : Nat) : Instr → Option (List Char)
  | .init _ => some ("INIT cfg=".toList ++ cfgName)
  | .setMode m => some ("SETMODE ".toList ++ mode m)
  | .startTx f budget =>
    some ("STARTTX ".toList ++ bytes f.encode.toList ++ ", ".toList ++ (toString budget.toInt).toList)
  | .poll =>
    some ("POLL ".toList ++ braces ("NOW=".toList ++ (toString now).toList ++ ", DR=".toList ++ [if dr then '1' else '0']))
  | .encodeFrame f => some ("ENCODE ".toList ++ fields f)
  | .decodeBytes bs => some ("DECODE ".toList ++ bytes bs)
  | .wConfig _ _ | .rConfig _ | .wTxPayload _ | .wTxAddress _ | .rRxPayload => none
  | .frameSetVoltage _ | .frameSetSpeed _ | .frameSetTimer _ | .frameNetworkJoinRequest _ | .frameSetSpeedReply _
  | .frameNetworkJoinOpen _ | .frameFanSettings _ | .frameNetworkJoinAck _ | .frameQueryNetwork _
  | .frameQueryDevice _ | .frameSetVoltageReply _ => none

end Sys2Proof.Script
end

