-- ==== Sys2Proof/Tests/Slice0.lean ====
section
/-! SUPPORT. The model's own tests. The expected results are those of spec/95_test_vectors.md, named in each comment, or
written out from the rule named. The witnesses at the end meet the hypotheses of the statements of Obligations.lean. -/

namespace Sys2Proof.Tests

open Sys2Proof.Machine

/-! ## States and operands the tests share -/

/-- CFG0 of 95_test_vectors.md: the fixed configuration of R20, both addresses 0x89816EA9. -/
def cfg0 : RadioConfig := RadioConfig.fixed 0x89816EA9 0x89816EA9

/-- IMG0: the image of CFG0. -/
def img0 : Bytes 10 := #v[0x76, 0x0E, 0x44, 0x10, 0x10, 0xA9, 0x6E, 0x81, 0x89, 0xD8]

/-- RST: what a freshly powered radio answers to R_CONFIG. -/
def rst : List Byte := [0x6C, 0x00, 0x44, 0x20, 0x20, 0xE7, 0xE7, 0xE7, 0xE7, 0xE7]

/-- V1: a SetSpeed(High) frame. -/
def v1 : Frame where
  dstType := 0x01
  dstId := 0x4F
  srcType := 0x03
  srcId := 0x2A
  ttl := 0xFA
  command := 0x02
  payload := #v[3, 0, 0, 0, 0, 0, 0, 0, 0, 0]

def v1Bytes : List Byte := [0x01, 0x4F, 0x03, 0x2A, 0xFA, 0x02, 3, 0, 0, 0, 0, 0, 0, 0, 0, 0]

/-- RP1: a SetSpeedReply. -/
def rp1 : Frame where
  dstType := 0x03
  dstId := 0x2A
  srcType := 0x01
  srcId := 0x4F
  ttl := 0xFA
  command := 0x05
  payload := Vector.replicate 10 0

def rp1Bytes : List Byte := [0x03, 0x2A, 0x01, 0x4F, 0xFA, 0x05, 0, 0, 0, 0, 0, 0, 0, 0, 0, 0]

/-- A body for the frame rows. -/
def body : FrameBody where
  dstType := 0x01
  dstId := 0x4F
  srcType := 0x03
  srcId := 0x2A
  ttl := 0xFA
  payload := #v[0x11, 0x22, 0x33, 0x44, 0x55, 0x66, 0x77, 0x88, 0x99, 0xAA]

/-- The bytes of that body with a command code. -/
def bodyBytes (c : Byte) : List Byte :=
  [0x01, 0x4F, 0x03, 0x2A, 0xFA, c, 0x11, 0x22, 0x33, 0x44, 0x55, 0x66, 0x77, 0x88, 0x99, 0xAA]

/-- S1: LIFE = Ready, MODE = Idle, pins 1, 0, 0, PEND = None. -/
def s1 : State := { State.reset with life := .ready, mode := .idle, pwr := true, cfg := cfg0 }

/-- PEND = TxBusy with `n` transmissions left, MODE = Transmit, and DR = 1. -/
def txBusy (n budget : Byte) : State :=
  { s1 with pend := .txBusy, mode := .transmit, ce := true, txen := true, retx := n, budget := budget, drIn := true,
            now := 40 }

/-- PEND = RxWait, DEADLINE = 1040, MODE = Receive, with DR and NOW. -/
def rxWait (dr : Bool) (now : Nat) : State :=
  { s1 with pend := .rxWait, mode := .receive, ce := true, deadline := 1040, drIn := dr, now := now }

/-- The same state with RP1 in the radio's RXPL. -/
def withReply (s : State) : State := { s with mem := Memory.writeBytes [] (Space.rxPl.key 0) rp1Bytes }

/-- The reset state with one output pin or DR not bound. -/
def unbound (b : Bound) : State := State.powerOn { Params.default with bound := b }

def noTxen : Bound := { Params.default.bound with txen := false }

/-- `ValidateCfg` of P5: neither ten bytes 0x00 nor ten bytes 0xFF. -/
def notBlank : CfgTest where
  verdict := true
  except := [Vector.replicate 10 0x00, Vector.replicate 10 0xFF]

/-- A slot with a byte string at the host's face. -/
def hostSlot (bytes : List Byte) : Slot := State.reset.slotOf .host bytes

/-- A field of the next state, if there is one. -/
def after {α : Type} (f : State → α) : Step → Option α
  | .next s => some (f s)
  | .fault _ => none
  | .refused _ => none

/-- The reason of a refusal, if it is one. -/
def refusal : Step → Option Refusal
  | .refused r => some r
  | .next _ => none
  | .fault _ => none

/-- The reason of a fault, if it is one. -/
def faulted : Step → Option Fault
  | .fault r => some r
  | .next _ => none
  | .refused _ => none

/-! ## Well-formedness: an ill-formed term for each check -/

theorem test_wf_decode_256 : (Instr.decodeBytes (List.replicate 256 0)).wf = false := by
  rw [Instr.wf, List.length_replicate]; rfl
theorem test_wf_decode_255 : (Instr.decodeBytes (List.replicate 255 0)).wf = true := by
  rw [Instr.wf, List.length_replicate]; rfl
theorem test_wf_cfg0 : cfg0.wf = true := by decide
theorem test_wf_payload_width : RadioConfig.wf { cfg0 with payloadWidth := 32 } = false := by decide
theorem test_wf_rx_addr_width : RadioConfig.wf { cfg0 with rxAddrWidth := 1 } = false := by decide
theorem test_wf_tx_addr_width : RadioConfig.wf { cfg0 with txAddrWidth := 1 } = false := by decide
theorem test_wf_xtal : RadioConfig.wf { cfg0 with xtal := 5 } = false := by decide
theorem test_wf_params : Params.default.wf = true := by decide
theorem test_wf_tx_frames : Params.wf { Params.default with txFrames := 0 } = false := by decide
theorem test_wf_codes_start : SpiCodes.wf { Params.default.spi with rConfig := 0x11 } = false := by decide
theorem test_wf_codes_config : SpiCodes.wf { Params.default.spi with rConfig := 0x00 } = false := by decide
theorem test_wf_codes_nibble : SpiCodes.wf { Params.default.spi with wTxPayload := 0x0F } = false := by decide
theorem test_wf_codes_same : SpiCodes.wf { Params.default.spi with wTxAddress := 0x24 } = false := by decide
theorem test_wf_memory : ¬ Memory.wf [(0x20, 1), (0x20, 2)] := by decide
theorem test_wf_memory_default : ¬ Memory.wf [(0x00, 0x6C)] := by decide
theorem test_wf_memory_hole : ¬ Memory.wf [(0x0A, 0)] := by decide

/-! ## Decoding: a word of every row, written out from the spec -/

/-- IN1. -/
theorem test_decode_init : decode Params.default .host
    [0x00, 0x76, 0x0E, 0x44, 0x10, 0x10, 0xA9, 0x6E, 0x81, 0x89, 0xD8, 0xA9, 0x6E, 0x81, 0x89] = .ok (.init cfg0) := by
  decide
/-- M1 to M5. -/
theorem test_decode_setmode : [0, 1, 2, 3, 4].map (fun c : Byte => decode Params.default .host [0x01, c]) =
    [.powerDown, .standby, .idle, .receive, .transmit].map (fun m => .ok (.setMode m)) := by decide
/-- X1 and X7. -/
theorem test_decode_starttx : decode Params.default .host (0x02 :: v1Bytes ++ [0x0A]) = .ok (.startTx v1 10) := by decide
theorem test_decode_starttx_negative :
    decode Params.default .host (0x02 :: v1Bytes ++ [0xFF]) = .ok (.startTx v1 (-1)) := by decide
theorem test_decode_poll : decode Params.default .host [0x03] = .ok .poll := by decide
/-- CO1. -/
theorem test_decode_encode : decode Params.default .host (0x04 :: v1Bytes) = .ok (.encodeFrame v1) := by decide
/-- CO8, CO7. -/
theorem test_decode_decode : decode Params.default .host [0x05, 0x03, 1, 2, 3] = .ok (.decodeBytes [1, 2, 3]) := by decide
theorem test_decode_decode_empty : decode Params.default .host [0x05, 0x00] = .ok (.decodeBytes []) := by decide
/-- B2, B1, B4, B3, B5. -/
theorem test_decode_wConfig : decode Params.default .spi
    [0x00, 0x76, 0x0E, 0x44, 0x10, 0x10, 0xA9, 0x6E, 0x81, 0x89, 0xD8] = .ok (.wConfig 0 img0) := by decide
theorem test_decode_rConfig :
    decode Params.default .spi (0x10 :: List.replicate 10 0) = .ok (.rConfig 0) := by decide
theorem test_decode_wTxPayload :
    decode Params.default .spi (0x20 :: v1Bytes) = .ok (.wTxPayload v1.encode) := by decide
theorem test_decode_wTxAddress :
    decode Params.default .spi [0x22, 0xA9, 0x6E, 0x81, 0x89] = .ok (.wTxAddress 0x89816EA9) := by decide
theorem test_decode_rRxPayload :
    decode Params.default .spi (0x24 :: List.replicate 16 0) = .ok .rRxPayload := by decide
/-- The start address AAAA of R70. -/
theorem test_decode_rConfig_start :
    decode Params.default .spi (0x1B :: List.replicate 10 0) = .ok (.rConfig 11) := by decide
/-- The eleven codes of R63, in byte 5 of the frame (R61). -/
theorem test_decode_frames :
    [0x01, 0x02, 0x03, 0x04, 0x05, 0x06, 0x07, 0x0C, 0x0D, 0x10, 0x1D].map
      (fun c : Byte => decode Params.default .frame (bodyBytes c)) =
    [.ok (.frameSetVoltage body), .ok (.frameSetSpeed body), .ok (.frameSetTimer body),
      .ok (.frameNetworkJoinRequest body), .ok (.frameSetSpeedReply body), .ok (.frameNetworkJoinOpen body),
      .ok (.frameFanSettings body), .ok (.frameNetworkJoinAck body), .ok (.frameQueryNetwork body),
      .ok (.frameQueryDevice body), .ok (.frameSetVoltageReply body)] := by decide

/-- M6, F1, F2, F5, F6; a string that is too short, and one that is too long. -/
theorem test_reject_mode : decode Params.default .host [0x01, 0x05] = .error (.noSuchMode 5) := by decide
theorem test_reject_opcode : [0x06, 0xFF].map (fun b : Byte => decode Params.default .host [b]) =
    [.error (.noSuchOpcode 0x06), .error (.noSuchOpcode 0xFF)] := by decide
theorem test_reject_init_unused_bit : decode Params.default .host
    [0x00, 0x76, 0x4E, 0x44, 0x10, 0x10, 0xA9, 0x6E, 0x81, 0x89, 0xD8, 0xA9, 0x6E, 0x81, 0x89] =
      .error .noRadioConfig := by decide
theorem test_reject_init_auto_retran : decode Params.default .host
    [0x00, 0x76, 0x2E, 0x44, 0x10, 0x10, 0xA9, 0x6E, 0x81, 0x89, 0xD8, 0xA9, 0x6E, 0x81, 0x89] =
      .error .noRadioConfig := by decide
theorem test_reject_lengths : decode Params.default .host [0x03, 0x00] = .error (.wrongLength 2) ∧
    decode Params.default .host [0x05, 0x02, 0x01] = .error (.wrongLength 3) ∧
    decode Params.default .frame v1Bytes.tail = .error (.notAFrame 15) := by decide
theorem test_reject_transaction :
    decode Params.default .spi (0x21 :: v1Bytes) = .error (.noSuchTransaction 0x21) := by decide

/-- A frame whose code no row lists. -/
theorem test_unlisted_frame : decode Params.default .frame (bodyBytes 0x08) =
    .error (.unlistedFrame (body.withCommand 0x08)) := by decide

/-! ## Addresses, images, codes -/

/-- A1, A2, A4. -/
theorem test_address_bytes : addrBytes true 0x89816EA9 = [0xA9, 0x6E, 0x81, 0x89] ∧
    addrBytes true 1 = [0x01, 0x00, 0x00, 0x00] ∧ addrBytes false 0x89816EA9 = [0x89, 0x81, 0x6E, 0xA9] := by decide
/-- I1. -/
theorem test_image_cfg0 : cfg0.image true = img0 := by decide
/-- I2. -/
theorem test_image_other : (RadioConfig.image true {
      band := false, channel := 364, crcEn := true, crc16 := false, txPower := 0, rxReduced := true,
      rxAddr := 0x01020304, txAddr := 0, rxAddrWidth := 4, txAddrWidth := 4, payloadWidth := 16, xtal := 4,
      clkOutEn := true, clkOutFreq := 3 }).toList =
    [0x6C, 0x11, 0x44, 0x10, 0x10, 0x04, 0x03, 0x02, 0x01, 0x67] := by decide
/-- I3. -/
theorem test_image_channel : (RadioConfig.image true { cfg0 with channel := 511 }).toList.take 2 = [0xFF, 0x0F] := by
  decide
/-- The budget bytes of section 2.5. -/
theorem test_budget : [0x00, 0x0A, 0x7F, 0x80, 0xFF].map replyExpected = [true, true, true, false, false] := by decide
/-- The bus bytes of B1. -/
theorem test_bus_read : (OutEvent.spiR 0x10 10 rst).busBytes = 0x10 :: List.replicate 10 0 := by decide
/-- The envelope of R78. -/
theorem test_response_wire : (Response.event (.frameReceived rp1)).wire = 2 :: rp1Bytes ∧
    (Response.result .badLength).wire = [4] ∧ (Response.frame rp1).wire = 0 :: rp1Bytes := by decide

/-! ## SETMODE -/

/-- M9. -/
theorem test_setMode_direct : after (fun s => (s.mode, s.pwr, s.ce, s.txen, s.out))
    (exec (.setMode .receive) (txBusy 4 10)) =
    some (.receive, true, true, false, [.pins (some true) (some true) (some false)]) := by decide
/-- M8. -/
theorem test_setMode_unbound : after (fun s => (s.mode, s.pwr, s.ce, s.txen, s.out))
    (exec (.setMode .transmit) (unbound noTxen)) =
    some (.transmit, true, true, false, [.pins (some true) (some true) none]) := by decide

/-! ## INIT -/

/-- IN1, from the bytes. -/
theorem test_init_ok : after (fun s => (s.life, s.mode, s.cfg, s.ret, s.out))
    (step { State.reset with inbox := [hostSlot (0x00 :: img0.toList ++ [0xA9, 0x6E, 0x81, 0x89])] }) =
    some (.ready, .idle, cfg0, .result .ok,
      [.pins (some false) (some false) (some false), .spiR 0x10 10 rst, .spiW 0x00 img0.toList,
        .spiW 0x22 [0xA9, 0x6E, 0x81, 0x89], .pins (some true) (some false) (some false)]) := by decide
/-- IN6: the radio answers ten bytes 0x00. -/
theorem test_init_mismatch : after (fun s => (s.life, s.mode, s.ret, s.out))
    (exec (.init cfg0) { State.powerOn { Params.default with validate := notBlank } with
      mem := Memory.writeBytes [] 0 (List.replicate 10 0) }) =
    some (.failed, .powerDown, .result .registerMismatch,
      [.pins (some false) (some false) (some false), .spiR 0x10 10 (List.replicate 10 0)]) := by decide

/-! ## Reset -/

/-- R210: LIFE Failed is left, the radio's registers keep the image. -/
theorem test_reset_keeps_radio : (fun s : State => (s.life, s.out, (List.range 10).map s.mem.read))
    (State.resetBlock { s1 with life := .failed, mem := Memory.writeBytes [] 0 img0.toList }) =
    (.uninit, [], img0.toList.map some) := by decide

/-! ## STARTTX -/

/-- X2. -/
theorem test_startTx_through_idle : after (fun s => (s.txbuf, s.retx, s.mode, s.pend, s.out))
    (exec (.startTx v1 10) { s1 with mode := .receive, ce := true }) =
    some (v1.encode, 4, .transmit, .txBusy,
      [.pins (some true) (some false) (some false), .spiW 0x20 v1Bytes, .pins (some true) (some true) (some true)]) := by
  decide
/-- X5. -/
theorem test_startTx_busy :
    after id (exec (.startTx v1 10) (rxWait false 0)) = some { rxWait false 0 with ret := .result .busy } := by decide

/-! ## POLL -/

/-- Q2 and Q4. -/
theorem test_poll_repeat : after (fun s => (s.ret, s.retx, s.mode, s.out)) (exec .poll (txBusy 4 10)) =
    some (.event .idle, 3, .transmit,
      [.pins (some true) (some false) (some false), .pins (some true) (some true) (some true)]) := by decide
theorem test_poll_turn : after (fun s => (s.ret, s.retx, s.mode, s.pend, s.deadline)) (exec .poll (txBusy 1 10)) =
    some (.event .transmitComplete, 0, .receive, .rxWait, 1040) := by decide
/-- Q7. -/
theorem test_poll_done : after (fun s => (s.ret, s.mode, s.pend, s.deadline, s.out)) (exec .poll (txBusy 1 0x80)) =
    some (.event .transmitComplete, .idle, .none, 0, [.pins (some true) (some false) (some false)]) := by decide
/-- Q12: a frame before the timeout. -/
theorem test_poll_reply : after (fun s => (s.ret, s.mode, s.pend, s.out)) (exec .poll (withReply (rxWait true 1040))) =
    some (.event (.frameReceived rp1), .receive, .none, [.spiR 0x24 16 rp1Bytes]) := by decide
/-- Q9 and Q10. -/
theorem test_poll_deadline : after (·.ret) (exec .poll (rxWait false 1039)) = some (.event .idle) ∧
    after (fun s => (s.ret, s.mode, s.pend)) (exec .poll (rxWait false 1040)) =
      some (.event .receiveTimeout, .receive, .none) := by decide
/-- Q15. -/
theorem test_poll_ignores_dr : after id (exec .poll { s1 with drIn := true }) =
    some { s1 with drIn := true, ret := .event .idle } := by decide

/-! ## ENCODE, DECODE, the wire frames -/

/-- CO1. -/
theorem test_encode : after (·.ret) (exec (.encodeFrame v1) State.reset) = some (.bytes v1.encode) ∧
    v1.encode.toList = v1Bytes := by decide
/-- CO2, CO9, CO10. -/
theorem test_decodeBytes : after (·.ret) (exec (.decodeBytes rp1Bytes) State.reset) = some (.frame rp1) := by decide
theorem test_decodeBytes_length : [15, 17].map (fun n => after (·.ret)
    (exec (.decodeBytes (List.replicate n 0)) State.reset)) = [some (.result .badLength), some (.result .badLength)] := by
  decide
/-- A wire frame, listed or not, comes through whole. -/
theorem test_frame_step : [0x1D, 0x08].map (fun c : Byte => after (fun s => (s.ret, s.out, s.inbox))
      (step { s1 with inbox := [s1.slotOf .frame (bodyBytes c)] })) =
    [some (.frame (body.withCommand 0x1D), [], []), some (.frame (body.withCommand 0x08), [], [])] := by decide

/-! ## Transactions -/

/-- B1. -/
theorem test_rConfig : after (fun s => (s.ret, s.out)) (exec (.rConfig 0) State.reset) =
    some (.data rst, [.spiR 0x10 10 rst]) := by decide
theorem test_rConfig_fault : faulted (exec (.rConfig 1) State.reset) = some (.pastEndOfConfig 1) := by decide
/-- B2: CONFIG holds the image, and nothing else is listed. -/
theorem test_wConfig : after (fun s => (s.mem, s.out)) (exec (.wConfig 0 img0) State.reset) =
    some ([(0, 0x76), (1, 0x0E), (3, 0x10), (4, 0x10), (5, 0xA9), (6, 0x6E), (7, 0x81), (8, 0x89), (9, 0xD8)],
      [.spiW 0x00 img0.toList]) := by decide
/-- B3. -/
theorem test_wTxAddress : after (fun s => (s.mem, s.out)) (exec (.wTxAddress 0x89816EA9) State.reset) =
    some ([(0x10, 0xA9), (0x11, 0x6E), (0x12, 0x81), (0x13, 0x89)], [.spiW 0x22 [0xA9, 0x6E, 0x81, 0x89]]) := by decide
/-- B4. -/
theorem test_wTxPayload : after (fun s => (s.mem.map (·.2), s.out)) (exec (.wTxPayload v1.encode) State.reset) =
    some (v1Bytes, [.spiW 0x20 v1Bytes]) := by decide
/-- B5. -/
theorem test_rRxPayload : after (fun s => (s.ret, s.mem, s.out)) (exec .rRxPayload (withReply s1)) =
    some (.data rp1Bytes, [], [.spiR 0x24 16 rp1Bytes]) := by decide

/-! ## The step and the opcode table -/

/-- The radio changes its registers between commands; a cell that does not exist changes nothing. -/
theorem test_radio_cells : Memory.radioWrites [] [(0x40, 7), (0x0A, 1), (0x00, 0x6C)] = [(0x40, 7)] := by decide
/-- The rows whose word is not also the word of an earlier row. -/
theorem test_table_words : [0x00, 0x01, 0x02, 0x03, 0x04, 0x05, 0x10, 0x20, 0x22, 0x24].map
      (fun w => (decodeTableWord 8 w).map Instr.port) =
    [some .host, some .host, some .host, some .host, some .host, some .host, some .spi, some .spi, some .spi,
      some .spi] ∧
    [0x06, 0x07, 0x0C, 0x0D, 0x1D].map (fun w => (decodeTableWord 8 w).map Instr.port) =
      List.replicate 5 (some .frame) := by decide
/-- A word as long as its row: SETMODE Receive; W_TX_ADDRESS of 0x89816EA9; FRAME.SetSpeed. -/
theorem test_table_words_whole : decodeTableWord 16 0x0301 = some (.setMode .receive) ∧
    decodeTableWord 40 0x89816EA922 = some (.wTxAddress 0x89816EA9) ∧
    decodeTableWord 128 0xAA99887766554433221102FA2A034F01 = some (.frameSetSpeed body) := by decide
/-- The next step runs the word. -/
theorem test_withFetchWord : after (fun s => (s.mode, s.inbox)) (step (State.reset.withFetchWord 16 0x0301)) =
    some (.receive, []) := by decide
/-- F3, F4. -/
theorem test_step_refused : refusal (step { s1 with inbox := [hostSlot [0x01, 0x07]] }) =
      some (.notACommand (.noSuchMode 7)) ∧
    refusal (step { State.reset with inbox := [hostSlot [0x03]] }) = some .pollNotReady := by decide

/-! ## The host's contract -/

/-- L1.6: command 0x02, payload byte 0 = 0x03, destination type MainUnit, and the bytes of V1. -/
theorem test_setSpeed_frame : HostContract.setSpeedFrame
    { deviceId := 0x2A, mainUnitId := 0x4F, mainUnitType := 0x01, network := 0x89816EA9 } DeviceType.remoteControl.code
    .high (Vector.replicate 9 0) = v1 := by decide
theorem test_reply_matches : HostContract.matchesReply 0x01 0x4F FrameCommand.setSpeedReply.code rp1 = true := by decide
/-- H4, H6 and H13 of R152. -/
theorem test_host_rows :
    HostContract.next .discoveryWaitForLinkRequest .joinOpenReceived =
      some (.discoveryWaitForJoinResponse, .recordNetworkIdSendJoinAck) ∧
    HostContract.next .discoveryWaitForLinkRequest .retriesExhausted = some (.idle, .reportDiscoveryFailure) ∧
    HostContract.next .waitSetSpeedConfirm .retriesExhausted = some (.idle, .surfaceFailure) := by decide

/-- R155 on a ttl of 0. -/
theorem test_reply_ttl : HostContract.matchesReply 0x01 0x4F FrameCommand.setSpeedReply.code { rp1 with ttl := 0 } =
    false := by decide

/-- The lines of the script syntax (R81). -/
theorem test_script_lines :
    Script.line "CFG0".toList false 0 (.init cfg0) = some "INIT cfg=CFG0".toList ∧
    Script.line [] false 0 (.setMode .receive) = some "SETMODE Receive".toList ∧
    Script.line [] false 0 (.decodeBytes [0x01, 0xFA]) = some "DECODE 01 FA".toList := by decide

/-! ## Witnesses: the hypotheses of each statement of Obligations.lean can be met, clause by clause -/

/-- S1 with a byte string handed to it. -/
def s1With (bytes : List Byte) : State := { s1 with inbox := [s1.slotOf .host bytes] }

theorem s1With_inv (bytes : List Byte) : (s1With bytes).Inv where
  params := by show Params.default.wf = true; decide
  memory := by show Memory.wf []; decide
  pins := ⟨fun _ => rfl, fun _ => rfl, fun _ => rfl⟩
  bound := fun _ => rfl
  pendReady := fun _ => rfl
  retx := fun h => nomatch h

theorem witness_ResetKeepsTheRadio : (s1With []).Inv := s1With_inv []

theorem witness_ImageLayout : 7 < 8 ∧ 2 < 3 ∧ 5 < 6 ∧ 3 < 4 ∧ 1 < 2 := by decide

theorem witness_DecodeOfEncode :
    Params.default.spi.wf = true ∧ (Instr.decodeBytes (List.replicate 255 0)).wf = true :=
  ⟨by decide, test_wf_decode_255⟩

theorem witness_EncodeOfDecode :
    Params.default.spi.wf = true ∧ decode Params.default .host [0x03] = .ok .poll ∧
      (∀ a, Instr.poll ≠ .rConfig a) ∧ Instr.poll ≠ .rRxPayload := ⟨by decide, by decide, nofun, nofun⟩

theorem witness_HostRejects_codes : 0x06 ≤ (0x06 : Byte).toNat ∧ 5 ≤ (0x05 : Byte).toNat := by decide
theorem witness_HostRejects_bits :
    (0x20 : Byte).extractLsb' 5 3 ≠ 0 ∧ (0x80 : Byte).getLsbD 7 = true ∧ (0x08 : Byte).getLsbD 3 = true ∧
      (0x40 : Byte).extractLsb' 6 2 ≠ 0 ∧ (List.replicate 9 (0 : Byte)).length = 9 := by decide

theorem witness_StepRunsTheDecodedInstruction :
    (s1With [0x03]).inbox = [s1.slotOf .host [0x03]] ∧ decode (s1With [0x03]).params .host [0x03] = .ok .poll :=
  ⟨rfl, by decide⟩

theorem witness_StepWithoutAnInstruction : State.reset.inbox = [] ∧
    (s1With [0x06]).inbox = [s1.slotOf .host [0x06]] ∧
    decode (s1With [0x06]).params .host [0x06] = .error (.noSuchOpcode 0x06) ∧
    ∀ f, Reject.noSuchOpcode 0x06 ≠ .unlistedFrame f := ⟨rfl, rfl, by decide, nofun⟩

theorem witness_FrameFaceCarriesEveryFrame :
    (s1.slotOf .frame (bodyBytes 0x08)).port = .frame ∧ (s1.slotOf .frame (bodyBytes 0x08)).bytes.length = 16 :=
  ⟨rfl, rfl⟩

theorem witness_SetModeSkipsUnboundPins_unbound :
    (unbound { Params.default.bound with pwr := false }).params.bound.pwr = false ∧
    (unbound { Params.default.bound with ce := false }).params.bound.ce = false ∧
    (unbound noTxen).params.bound.txen = false := ⟨rfl, rfl, rfl⟩
theorem witness_SetModeSkipsUnboundPins_ready :
    (s1With [0x01, 0x03]).Inv ∧ ∃ t, step (s1With [0x01, 0x03]) = .next t ∧ t.life = .ready :=
  ⟨s1With_inv _, _, rfl, rfl⟩

theorem witness_InitSucceeds : State.reset.life = .uninit ∧ cfg0.wf = true ∧ State.reset.params.bound.pwr = true ∧
    State.reset.params.bound.ce = true ∧ State.reset.params.bound.txen = true ∧
    State.reset.params.validate.accepts
      (State.answer { State.reset with out := [.pins (some false) (some false) (some false)] } .config 0 10) = true := by
  decide

theorem witness_InitLoadsTheRadio : (∃ t, exec (.init cfg0) State.reset = .next t ∧ t.ret = .result .ok) ∧
    9 < 10 ∧ 3 < 4 ∧ ¬ (Space.config.key 0 ≤ 10 ∧ 10 < Space.config.key 0 + 10) ∧
    ¬ (Space.txAddr.key 0 ≤ 10 ∧ 10 < Space.txAddr.key 0 + 4) := ⟨⟨_, rfl, rfl⟩, by decide⟩

/-- The reset state with a test that fails every string. -/
def failing : State := State.powerOn { Params.default with validate := { verdict := false, except := [] } }

theorem witness_InitReadBackFails : failing.life = .uninit ∧ cfg0.wf = true ∧ failing.params.bound.pwr = true ∧
    failing.params.bound.ce = true ∧ failing.params.bound.txen = true ∧
    failing.params.validate.accepts
      (State.answer { failing with out := [.pins (some false) (some false) (some false)] } .config 0 10) = false := by
  decide

theorem witness_InitMissingPin : (unbound noTxen).life = .uninit ∧ cfg0.wf = true ∧
    (unbound { Params.default.bound with pwr := false }).params.bound.pwr = false ∧
    (unbound { Params.default.bound with ce := false }).params.bound.ce = false ∧
    (unbound noTxen).params.bound.txen = false := by decide

theorem witness_LifecycleRefusals_life : s1.life ≠ .uninit ∧ State.reset.life ≠ .ready ∧ failing.life = .uninit := by
  decide
theorem witness_LifecycleRefusals_records : (RadioConfig.payloadWidth { cfg0 with payloadWidth := 15 }) ≠ 16 ∧
    (RadioConfig.rxAddrWidth { cfg0 with rxAddrWidth := 1 }) ≠ 4 ∧
    (RadioConfig.txAddrWidth { cfg0 with txAddrWidth := 1 }) ≠ 4 ∧
    4 < (RadioConfig.xtal { cfg0 with xtal := 5 }).toNat := by decide

theorem witness_StartTxAccepted : s1.life = .ready ∧ s1.pend = .none := by decide

theorem witness_StartTxBusyChangesNothing : ((txBusy 4 10).life = .ready ∧ (txBusy 4 10).pend = .txBusy) ∧
    ((rxWait false 0).life = .ready ∧ (rxWait false 0).pend = .rxWait) ∧ (s1.life = .ready ∧ s1.pend = .none) := by decide

theorem witness_PollRepeats : (txBusy 2 10).life = .ready ∧ (txBusy 2 10).pend = .txBusy ∧
    (txBusy 2 10).params.bound.dr = true ∧ (txBusy 2 10).drIn = true ∧ 2 ≤ (txBusy 2 10).retx.toNat := by decide

theorem witness_PollCompletesTheTransmission_reply : (txBusy 1 0).life = .ready ∧ (txBusy 1 0).pend = .txBusy ∧
    (txBusy 1 0).params.bound.dr = true ∧ (txBusy 1 0).drIn = true ∧ (txBusy 1 0).retx = 1 ∧
    0 ≤ (txBusy 1 0).budget.toInt := by decide
theorem witness_PollCompletesTheTransmission_none : (txBusy 1 0xFF).life = .ready ∧ (txBusy 1 0xFF).pend = .txBusy ∧
    (txBusy 1 0xFF).params.bound.dr = true ∧ (txBusy 1 0xFF).drIn = true ∧ (txBusy 1 0xFF).retx = 1 ∧
    (txBusy 1 0xFF).budget.toInt < 0 := by decide

/-- S1 listening, with DR. -/
def listening (dr : Bool) : State := { s1 with mode := .receive, ce := true, drIn := dr }

theorem witness_PollDeliversTheFrame_wait : (rxWait true 1040).life = .ready ∧
    (rxWait true 1040).params.bound.dr = true ∧ (rxWait true 1040).drIn = true ∧ (rxWait true 1040).pend = .rxWait := by
  decide
theorem witness_PollDeliversTheFrame_none : (listening true).life = .ready ∧ (listening true).params.bound.dr = true ∧
    (listening true).drIn = true ∧ (listening true).pend = .none ∧ (listening true).mode = .receive := by decide

theorem witness_PollTimesOut : (rxWait false 1040).life = .ready ∧ (rxWait false 1040).pend = .rxWait ∧
    (rxWait false 1040).drIn = false ∧ (rxWait false 1040).deadline ≤ (rxWait false 1040).now := by decide

/-- A transmission pending with DR unbound. -/
def deaf : State :=
  { txBusy 4 10 with params := { Params.default with bound := { Params.default.bound with dr := false } } }

theorem witness_PollIdleChangesNothing_busy :
    deaf.life = .ready ∧ deaf.pend = .txBusy ∧ deaf.params.bound.dr = false := by decide
theorem witness_PollIdleChangesNothing_wait : (rxWait false 1039).life = .ready ∧ (rxWait false 1039).pend = .rxWait ∧
    (rxWait false 1039).drIn = false ∧ (rxWait false 1039).now < (rxWait false 1039).deadline := by decide
theorem witness_PollIdleChangesNothing_none : s1.life = .ready ∧ s1.pend = .none ∧ s1.mode ≠ .receive ∧
    (listening false).pend = .none ∧ (listening false).drIn = false := by decide

theorem witness_DecodeResult : (List.replicate 15 (0 : Byte)).length ≠ 16 ∧
    (List.replicate 17 (0 : Byte)).length ≠ 16 ∧ rp1Bytes.length = 16 := by decide

theorem witness_WriteTransactionsStore : 9 < 10 ∧ 15 < 16 ∧ 3 < 4 ∧
    ¬ (Space.config.key 0 ≤ 10 ∧ 10 < Space.config.key 0 + 10) ∧
    ¬ (Space.txPl.key 0 ≤ 0x30 ∧ 0x30 < Space.txPl.key 0 + 16) ∧
    ¬ (Space.txAddr.key 0 ≤ 0x14 ∧ 0x14 < Space.txAddr.key 0 + 4) := by decide

theorem witness_ReadTransactionsAnswer : State.reset.mem.read (Space.config.key 0 + 9) = some 0xE7 ∧
    (withReply s1).mem.read (Space.rxPl.key 0 + 0) = some 0x03 ∧
    ¬ (Space.rxPl.key 0 ≤ 0x50 ∧ 0x50 < Space.rxPl.key 0 + 16) := by decide

theorem witness_ConfigStartAddressFaults : (1 : BitVec 4) ≠ 0 ∧ (15 : BitVec 4) ≠ 0 := by decide

theorem witness_RegistersHaveOwners : (∃ t, exec (.encodeFrame v1) s1 = .next t) ∧
    (∀ cfg, Instr.encodeFrame v1 ≠ .init cfg) ∧ (∀ f b, Instr.encodeFrame v1 ≠ .startTx f b) ∧
    Instr.encodeFrame v1 ≠ .poll ∧ (∀ m, Instr.encodeFrame v1 ≠ .setMode m) ∧ (Instr.encodeFrame v1).port ≠ .spi :=
  ⟨⟨_, rfl⟩, nofun, nofun, nofun, nofun, nofun⟩

theorem witness_MemoryFrame : (∃ t, exec (.init cfg0) State.reset = .next t) ∧
    (∃ t, exec (.startTx v1 10) s1 = .next t) ∧ (∃ t, exec .poll s1 = .next t) ∧
    (¬ (Space.config.key 0 ≤ 10 ∧ 10 < Space.config.key 0 + 10) ∧
      ¬ (Space.txAddr.key 0 ≤ 10 ∧ 10 < Space.txAddr.key 0 + 4)) ∧
    ¬ (Space.txPl.key 0 ≤ 0x1F ∧ 0x1F < Space.txPl.key 0 + 16) ∧
    ¬ (Space.rxPl.key 0 ≤ 0x3F ∧ 0x3F < Space.rxPl.key 0 + 16) := ⟨⟨_, rfl⟩, ⟨_, rfl⟩, ⟨_, rfl⟩, by decide⟩

theorem witness_OnlyPollSeesTheInputs : Instr.setMode .idle ≠ .poll := nofun

theorem witness_NoErrorFromSetModePollEncode : ∃ t, exec .poll s1 = .next t := ⟨_, rfl⟩

theorem witness_ErrorsArePrecise :
    (∃ t, exec (.init cfg0) (unbound noTxen) = .next t ∧ t.ret = .result .missingPin) ∧
    (∃ t, exec (.init cfg0) failing = .next t ∧ t.ret = .result .registerMismatch) ∧
    (∃ t, exec (.startTx v1 10) (txBusy 4 10) = .next t ∧ t.ret = .result .busy) ∧
    (∃ t, exec (.decodeBytes []) s1 = .next t ∧ t.ret = .result .badLength) ∧
    Result.missingPin.isError = true ∧ Result.registerMismatch.isError = true ∧ Result.busy.isError = true ∧
    Result.badLength.isError = true :=
  ⟨⟨_, rfl, rfl⟩, ⟨_, rfl, rfl⟩, ⟨_, rfl, rfl⟩, ⟨_, rfl, rfl⟩, rfl, rfl, rfl, rfl⟩

theorem witness_LifeAndConfigAreFinal :
    (s1With [0x03]).life ≠ .uninit ∧ ∃ t, step (s1With [0x03]) = .next t := ⟨nofun, _, rfl⟩

theorem witness_BlockSetsNoPowerSaving : s1.life = .ready ∧ (∀ m, Instr.startTx v1 10 ≠ .setMode m) ∧
    ∃ t, exec (.startTx v1 10) s1 = .next t := ⟨rfl, nofun, _, rfl⟩

theorem witness_OutputTraceOnlyGrows : ∃ t, step (s1With [0x01, 0x03]) = .next t := ⟨_, rfl⟩

theorem witness_PayloadLoadedWithCeLow : (s1With []).Inv ∧ (Instr.startTx v1 10).port = .host ∧
    ∃ t, exec (.startTx v1 10) (s1With []) = .next t := ⟨s1With_inv _, rfl, _, rfl⟩

theorem witness_InvariantHoldsAtReset : Params.default.wf = true := by decide

theorem witness_EveryStepKeepsTheInvariant :
    (s1With [0x01, 0x03]).Inv ∧ ∃ t, step (s1With [0x01, 0x03]) = .next t := ⟨s1With_inv _, _, rfl⟩

theorem witness_ModeFollowsPend : (s1With (0x02 :: v1Bytes ++ [0x0A])).Inv ∧
    (s1With (0x02 :: v1Bytes ++ [0x0A])).ModeFollowsPend ∧
    (∀ i s', (s1With (0x02 :: v1Bytes ++ [0x0A])).fetch = .instr i s' →
      keepsSetModeDuty (s1With (0x02 :: v1Bytes ++ [0x0A])) i) ∧
    ∃ t, step (s1With (0x02 :: v1Bytes ++ [0x0A])) = .next t :=
  ⟨s1With_inv _, ⟨nofun, nofun⟩, fun i _ _ => by cases i <;> first | rfl | trivial, _, rfl⟩

theorem witness_TransmitEnableImpliesPower : (s1With [0x01, 0x04]).Inv ∧
    ∃ t, step (s1With [0x01, 0x04]) = .next t ∧ t.params.bound.mandatory = true ∧ t.txen = true :=
  ⟨s1With_inv _, _, rfl, rfl, rfl⟩

theorem witness_PollsCountTransmissions : (txBusy 4 10).life = .ready ∧ (txBusy 4 10).pend = .txBusy ∧
    (txBusy 4 10).params.bound.dr = true ∧
    [(true, 10), (false, 15), (true, 20), (true, 30)].countP (fun x : Bool × Nat => x.1) < (txBusy 4 10).retx.toNat := by
  decide

theorem witness_StartTxDrivesTransmitTxFramesTimes : s1.life = .ready ∧ s1.pend = .none ∧ s1.params.bound.dr = true ∧
    [(true, 10), (false, 15), (true, 20), (true, 30)].countP (fun x : Bool × Nat => x.1) + 1 =
      s1.params.txFrames.toNat := by decide

/-- The reply wait with DR unbound. -/
def deafWait : State :=
  { rxWait false 0 with params := { Params.default with bound := { Params.default.bound with dr := false } } }

theorem witness_ReplyWaitEndsAtTheDeadline : (rxWait false 0).life = .ready ∧ (rxWait false 0).pend = .rxWait ∧
    (∀ x ∈ [(false, 50), (false, 1039)], ((rxWait false 0).params.bound.dr = false ∨ x.1 = false) ∧
      x.2 < (rxWait false 0).deadline) ∧
    ((rxWait false 0).params.bound.dr = false ∨ false = false) ∧ (rxWait false 0).deadline ≤ 1040 := by decide
theorem witness_ReplyWaitEndsAtTheDeadline_unbound : deafWait.life = .ready ∧ deafWait.pend = .rxWait ∧
    (∀ x ∈ [(true, 50), (true, 1039)], (deafWait.params.bound.dr = false ∨ x.1 = false) ∧ x.2 < deafWait.deadline) ∧
    (deafWait.params.bound.dr = false ∨ true = false) ∧ deafWait.deadline ≤ 1040 := by decide

theorem witness_UnboundDrHangs : deaf.life = .ready ∧ deaf.pend = .txBusy ∧ deaf.params.bound.dr = false := by decide

end Sys2Proof.Tests
end

section
/-! What an instruction and a step keep of the parameters and of LIFE, and what SETMODE does at an unbound pin
(spec/40_mode_control.md). -/

namespace Sys2Proof.Machine

/-! ## SETMODE at an unbound pin -/

/-- SETMODE leaves the register of an unbound pin as it was. -/
theorem applyMode_unbound (m : Mode) (s : State) :
    (s.params.bound.pwr = false → (s.applyMode m).pwr = s.pwr) ∧
    (s.params.bound.ce = false → (s.applyMode m).ce = s.ce) ∧
    (s.params.bound.txen = false → (s.applyMode m).txen = s.txen) :=
  ⟨fun h => by simp [h], fun h => by simp [h], fun h => by simp [h]⟩

/-- SETMODE runs in every state. -/
theorem exec_setMode (m : Mode) (s : State) : exec (.setMode m) s = .next ((s.applyMode m).respond .nothing) := rfl

/-! ## Parameters and LIFE -/

@[simp] theorem State.carry_eq (f : Frame) (s : State) :
    s.carry f = s.respond (.frame (Frame.decode16 f.encode)) := rfl

@[simp] theorem State.throughIdle_params (s : State) : s.throughIdle.params = s.params := by
  unfold State.throughIdle
  split <;> rfl

@[simp] theorem State.throughIdle_life (s : State) : s.throughIdle.life = s.life := by
  unfold State.throughIdle
  split <;> rfl

@[simp] theorem State.startTransmit_params (f : Frame) (b : Byte) (s : State) :
    (s.startTransmit f b).params = s.params := State.throughIdle_params _

@[simp] theorem State.startTransmit_life (f : Frame) (b : Byte) (s : State) :
    (s.startTransmit f b).life = s.life := State.throughIdle_life _

/-- STARTTX keeps the parameters and LIFE, accepted or not. -/
theorem execStartTx_keeps_params_life {f : Frame} {b : Byte} {s t : State} (h : execStartTx f b s = .next t) :
    t.params = s.params ∧ t.life = s.life := by
  obtain ⟨-, ⟨-, rfl⟩ | ⟨-, rfl⟩⟩ := execStartTx_next h
  · exact ⟨rfl, rfl⟩
  · simp

/-- Every arm of POLL keeps the parameters and LIFE. -/
theorem execPoll_keeps_params_life {s t : State} (h : execPoll s = .next t) :
    t.params = s.params ∧ t.life = s.life := by
  obtain ⟨-, ⟨-, arm⟩ | ⟨-, arm⟩ | ⟨-, arm⟩⟩ := execPoll_next h
  · obtain ⟨-, rfl⟩ | ⟨-, -, rfl⟩ | ⟨-, -, -, rfl⟩ | ⟨-, -, -, rfl⟩ := arm <;> exact ⟨rfl, rfl⟩
  · obtain ⟨-, rfl⟩ | ⟨-, -, rfl⟩ | ⟨-, -, rfl⟩ := arm <;> exact ⟨rfl, rfl⟩
  · obtain ⟨-, -, rfl⟩ | ⟨-, rfl⟩ := arm <;> exact ⟨rfl, rfl⟩

/-- INIT keeps the parameters, and takes LIFE from Uninit to Failed, or to Ready with the mandatory pins bound. -/
theorem execInit_params_life {cfg : RadioConfig} {s t : State} (h : execInit cfg s = .next t) :
    t.params = s.params ∧ s.life = .uninit ∧
      (t.life = .failed ∨ t.life = .ready ∧ s.params.bound.mandatory = true) := by
  obtain ⟨huninit, -, ⟨-, rfl⟩ | ⟨-, -, rfl⟩ | ⟨hbound, -, rfl⟩⟩ := execInit_next h
  · exact ⟨rfl, huninit, .inl rfl⟩
  · exact ⟨rfl, huninit, .inl rfl⟩
  · exact ⟨rfl, huninit, .inr ⟨rfl, hbound⟩⟩

/-- What an instruction can do to LIFE: only INIT writes it. No instruction writes the parameters. -/
theorem exec_params_life {i : Instr} {s t : State} (h : exec i s = .next t) :
    t.params = s.params ∧
      (t.life = s.life ∨
       (∃ cfg, i = .init cfg) ∧ s.life = .uninit ∧
        (t.life = .failed ∨ t.life = .ready ∧ s.params.bound.mandatory = true)) := by
  induction i using exec_cases with
  | hostInit cfg =>
    obtain ⟨hparams, hlife⟩ := execInit_params_life h
    exact ⟨hparams, .inr ⟨⟨cfg, rfl⟩, hlife⟩⟩
  | setMode m => cases execSetMode_next h; exact ⟨rfl, .inl rfl⟩
  | startTx f b => exact (execStartTx_keeps_params_life h).imp_right .inl
  | poll => exact (execPoll_keeps_params_life h).imp_right .inl
  | encodeFrame f => cases execEncodeFrame_next h; exact ⟨rfl, .inl rfl⟩
  | decodeBytes bs =>
    obtain ⟨-, rfl⟩ | ⟨_, -, rfl⟩ := execDecodeBytes_next h <;> exact ⟨rfl, .inl rfl⟩
  | wConfig a img => obtain ⟨-, rfl⟩ := execWConfig_next h; exact ⟨rfl, .inl rfl⟩
  | rConfig a => obtain ⟨-, rfl⟩ := execRConfig_next h; exact ⟨rfl, .inl rfl⟩
  | wTxPayload f => cases execWTxPayload_next h; exact ⟨rfl, .inl rfl⟩
  | wTxAddress a => cases execWTxAddress_next h; exact ⟨rfl, .inl rfl⟩
  | rRxPayload => cases execRRxPayload_next h; exact ⟨rfl, .inl rfl⟩
  | frame c b => rw [exec_ofFrame] at h; cases h; exact ⟨rfl, .inl rfl⟩

/-- Where Ready comes with the mandatory pins bound before an instruction, so it does after it. -/
theorem exec_keeps_ready_bound {i : Instr} {s t : State} (hs : s.life = .ready → s.params.bound.mandatory = true)
    (h : exec i s = .next t) (ht : t.life = .ready) : t.params.bound.mandatory = true := by
  obtain ⟨hparams, hlife | ⟨-, -, hfailed | ⟨-, hbound⟩⟩⟩ := exec_params_life h
  · rw [hparams]; exact hs (hlife ▸ ht)
  · rw [ht] at hfailed; cases hfailed
  · rw [hparams]; exact hbound

/-- Where Ready comes with the mandatory pins bound before a step, so it does after it. -/
theorem step_keeps_ready_bound {s t : State} (hs : s.life = .ready → s.params.bound.mandatory = true)
    (h : step s = .next t) (ht : t.life = .ready) : t.params.bound.mandatory = true := by
  obtain ⟨-, rfl⟩ | ⟨c, rest, -, ⟨i, -, hexec⟩ | ⟨f, -, rfl⟩⟩ := step_next h
  · exact hs ht
  · exact exec_keeps_ready_bound (s := s.sample c rest) hs hexec ht
  · exact hs ht

/-- Settles O10: the skip is `applyMode_unbound` with the event's `shown`; the Ready clause is the invariant's `bound`,
which every step keeps. -/
theorem setModeSkipsUnboundPins : Obligations.SetModeSkipsUnboundPins := by
  constructor
  · intro m s
    obtain ⟨hpwr, hce, htxen⟩ := applyMode_unbound m s
    exact ⟨_, _, _, _, exec_setMode m s, rfl, State.applyMode_out s m,
      fun h => ⟨hpwr h, by simp [h]⟩, fun h => ⟨hce h, by simp [h]⟩, fun h => ⟨htxen h, by simp [h]⟩⟩
  · intro s t hinv hstep hready
    exact (mandatory_iff _).1 (step_keeps_ready_bound hinv.bound hstep hready)

end Sys2Proof.Machine
end

section
/-! STARTTX while an operation is pending, and with none (spec/43_transmit_receive.md section 1). -/

namespace Sys2Proof.Machine

/-- The host's STARTTX is `execStartTx`. -/
theorem exec_startTx (f : Frame) (b : Byte) (s : State) : exec (.startTx f b) s = execStartTx f b s := rfl

@[simp] theorem State.startTransmit_ret (f : Frame) (b : Byte) (s : State) :
    (s.startTransmit f b).ret = .result .ok := rfl

/-- Settles O17: TxBusy and RxWait are both "something pending", where `execStartTx_busy` gives the whole next state; with
nothing pending `execStartTx_accepted` gives it. -/
theorem startTxBusyChangesNothing : Obligations.StartTxBusyChangesNothing := by
  constructor
  · intro f b s hready hpend
    have hbusy : s.pend ≠ .none := by rcases hpend with h | h <;> simp [h]
    rw [exec_startTx]
    exact execStartTx_busy hready hbusy
  · intro f b s hready hnone
    rw [exec_startTx]
    exact ⟨_, execStartTx_accepted hready hnone, State.startTransmit_ret f b s⟩

end Sys2Proof.Machine
end

section
/-! The results of ENCODE and DECODE, and the byte string of a frame (spec/44_frame_codec.md). -/

namespace Sys2Proof

/-- The wire order of a frame's bytes (R61, R140). -/
theorem Frame.encode_toList (f : Frame) :
    f.encode.toList = [f.dstType, f.dstId, f.srcType, f.srcId, f.ttl, f.command] ++ f.payload.toList := rfl

/-- Encoding the raw fields of a 16-byte string gives the string back: the six fields are its first six bytes, and the
payload is the rest. -/
@[simp] theorem Frame.encode_decode16 (b : Bytes 16) : (Frame.decode16 b).encode = b := by
  obtain ⟨⟨l⟩, hlen⟩ := b
  match l, hlen with
  | _ :: _ :: _ :: _ :: _ :: _ :: _, _ => rfl

namespace Machine

/-- The host's ENCODE answers `Frame.encode`, in every state. -/
theorem exec_encodeFrame (f : Frame) (s : State) :
    exec (.encodeFrame f) s = .next (s.respond (.bytes f.encode)) := rfl

/-- The host's DECODE is `execDecodeBytes`. -/
theorem exec_decodeBytes (bytes : List Byte) (s : State) : exec (.decodeBytes bytes) s = execDecodeBytes bytes s := rfl

/-- DECODE of a string that is not 16 bytes long. -/
theorem execDecodeBytes_badLength {bytes : List Byte} (h : bytes.length ≠ 16) (s : State) :
    execDecodeBytes bytes s = .next (s.respond (.result .badLength)) := by
  simp [execDecodeBytes, exactly_eq_none_iff.2 h]

/-- DECODE of a string of 16 bytes. -/
theorem execDecodeBytes_toList (b : Bytes 16) (s : State) :
    execDecodeBytes b.toList s = .next (s.respond (.frame (Frame.decode16 b))) := by
  simp [execDecodeBytes]

/-- Settles O23: the bytes are `Frame.encode`'s, whose order is `Frame.encode_toList`. -/
theorem encodeResult : Obligations.EncodeResult :=
  fun f s => ⟨f.encode, exec_encodeFrame f s, f.encode_toList⟩

/-- Settles O24: `exactly` decides between the two answers by the length, and the fields of the frame answered are the
string again by `Frame.encode_decode16`. -/
theorem decodeResult : Obligations.DecodeResult := by
  intro bytes s
  rw [exec_decodeBytes]
  constructor
  · intro hlen
    exact execDecodeBytes_badLength hlen s
  · intro hlen
    obtain ⟨b, hb⟩ := exactly_of_length hlen
    obtain rfl : b.toList = bytes := exactly_eq_some hb
    refine ⟨Frame.decode16 b, execDecodeBytes_toList b s, ?_⟩
    rw [← Frame.encode_toList, Frame.encode_decode16]

end Machine
end Sys2Proof
end

section
/-! SETMODE, POLL and ENCODE return no error (spec/60_exceptions.md section 1). -/

namespace Sys2Proof.Machine

/-- The host's POLL is `execPoll`. -/
theorem exec_poll (s : State) : exec .poll s = execPoll s := rfl

/-- Every arm of POLL reports through an event (R186). -/
theorem execPoll_ret_event {s t : State} (h : execPoll s = .next t) : ∃ e, t.ret = .event e := by
  obtain ⟨-, ⟨-, arm⟩ | ⟨-, arm⟩ | ⟨-, arm⟩⟩ := execPoll_next h
  · obtain ⟨-, rfl⟩ | ⟨-, -, rfl⟩ | ⟨-, -, -, rfl⟩ | ⟨-, -, -, rfl⟩ := arm <;> exact ⟨_, rfl⟩
  · obtain ⟨-, rfl⟩ | ⟨-, -, rfl⟩ | ⟨-, -, rfl⟩ := arm <;> exact ⟨_, rfl⟩
  · obtain ⟨-, -, rfl⟩ | ⟨-, rfl⟩ := arm <;> exact ⟨_, rfl⟩

/-- Settles O34: SETMODE and ENCODE have one next state each, with a response that is no result; POLL's arms all answer
with an event. -/
theorem noErrorFromSetModePollEncode : Obligations.NoErrorFromSetModePollEncode := by
  refine ⟨fun m s => ?setMode, fun s t h => ?poll, fun f s => ?encode⟩
  case setMode => exact ⟨_, exec_setMode m s, nofun⟩
  case poll => exact execPoll_ret_event (exec_poll s ▸ h)
  case encode => exact ⟨_, f.encode, exec_encodeFrame f s, rfl⟩

end Sys2Proof.Machine
end

section
/-! The configuration image, bit by bit, and its inverse (spec/30_encoding.md section 3). -/

namespace Sys2Proof

@[simp] theorem getLsbD_bit (b : Bool) (i : Nat) : (bit b).getLsbD i = (decide (i = 0) && b) := by
  cases i <;> simp [bit]

namespace RadioConfig

variable (c : RadioConfig) (lsbFirst : Bool)

theorem image_toList : (c.image lsbFirst).toList =
    [c.image0, c.image1, c.image2, c.image34, c.image34] ++ addrBytes lsbFirst c.rxAddr ++ [c.image9] := rfl

/-! ## The bits of the image -/

theorem image0_bits (j : Nat) (hj : j < 8) : c.image0.getLsbD j = c.channel.getLsbD j := by
  simp [image0, hj]

theorem image1_bits :
    c.image1.getLsbD 7 = false ∧ c.image1.getLsbD 6 = false ∧ c.image1.getLsbD 5 = false ∧
    c.image1.getLsbD 4 = c.rxReduced ∧ c.image1.getLsbD 3 = c.txPower.getLsbD 1 ∧
    c.image1.getLsbD 2 = c.txPower.getLsbD 0 ∧ c.image1.getLsbD 1 = c.band ∧
    c.image1.getLsbD 0 = c.channel.getLsbD 8 := by
  simp only [image1, BitVec.getLsbD_append, getLsbD_bit]
  simp

theorem image2_bits :
    c.image2.getLsbD 7 = false ∧ (∀ j, j < 3 → c.image2.getLsbD (4 + j) = c.txAddrWidth.getLsbD j) ∧
    c.image2.getLsbD 3 = false ∧ ∀ j, j < 3 → c.image2.getLsbD j = c.rxAddrWidth.getLsbD j := by
  simp only [image2, BitVec.getLsbD_append]
  refine ⟨by simp, fun j hj => ?_, by simp, fun j hj => by simp [hj]⟩
  interval_cases j <;> simp

theorem image34_bits :
    c.image34.getLsbD 7 = false ∧ c.image34.getLsbD 6 = false ∧
    ∀ j, j < 6 → c.image34.getLsbD j = c.payloadWidth.getLsbD j := by
  simp only [image34, BitVec.getLsbD_append]
  exact ⟨by simp, by simp, fun j hj => by simp [hj]⟩

theorem image9_bits :
    c.image9.getLsbD 7 = c.crc16 ∧ c.image9.getLsbD 6 = c.crcEn ∧
    (∀ j, j < 3 → c.image9.getLsbD (3 + j) = c.xtal.getLsbD j) ∧ c.image9.getLsbD 2 = c.clkOutEn ∧
    ∀ j, j < 2 → c.image9.getLsbD j = c.clkOutFreq.getLsbD j := by
  simp only [image9, BitVec.getLsbD_append, getLsbD_bit]
  refine ⟨by simp, by simp, fun j hj => ?_, by simp, fun j hj => by simp [hj]⟩
  interval_cases j <;> simp

/-! ## The fields from the image -/

theorem image1_fields :
    c.image1.extractLsb' 5 3 = 0#3 ∧ c.image1.getLsbD 4 = c.rxReduced ∧ c.image1.extractLsb' 2 2 = c.txPower ∧
    c.image1.getLsbD 1 = c.band := by
  simp only [image1, BitVec.extractLsb'_append_eq_ite, BitVec.getLsbD_append, getLsbD_bit]
  simp

theorem channel_of_image : c.image1.extractLsb' 0 1 ++ c.image0 = c.channel := by
  apply BitVec.eq_of_getLsbD_eq
  intro i hi
  simp only [image1, image0, BitVec.getLsbD_append, BitVec.getLsbD_extractLsb']
  interval_cases i <;> simp

theorem image2_fields :
    c.image2.extractLsb' 7 1 = 0#1 ∧ c.image2.extractLsb' 4 3 = c.txAddrWidth ∧
    c.image2.extractLsb' 3 1 = 0#1 ∧ c.image2.extractLsb' 0 3 = c.rxAddrWidth := by
  simp only [image2, BitVec.extractLsb'_append_eq_ite]
  simp

theorem image34_fields : c.image34.extractLsb' 6 2 = 0#2 ∧ c.image34.extractLsb' 0 6 = c.payloadWidth := by
  simp only [image34, BitVec.extractLsb'_append_eq_ite]
  simp

theorem image9_fields :
    c.image9.getLsbD 7 = c.crc16 ∧ c.image9.getLsbD 6 = c.crcEn ∧ c.image9.extractLsb' 3 3 = c.xtal ∧
    c.image9.getLsbD 2 = c.clkOutEn ∧ c.image9.extractLsb' 0 2 = c.clkOutFreq := by
  simp only [image9, BitVec.extractLsb'_append_eq_ite, BitVec.getLsbD_append, getLsbD_bit]
  simp

/-- An INIT operand decodes back into its record (R77). -/
theorem ofBytes_image : ofBytes lsbFirst ((c.image lsbFirst).toList ++ addrBytes lsbFirst c.txAddr) = some c := by
  obtain ⟨r0, r1, r2, r3, hrx, rx⟩ := addrOf_addrBytes lsbFirst c.rxAddr
  obtain ⟨t0, t1, t2, t3, htx, tx⟩ := addrOf_addrBytes lsbFirst c.txAddr
  obtain ⟨unused1, rxReduced, txPower, band⟩ := c.image1_fields
  obtain ⟨unused2, txAddrWidth, unused2', rxAddrWidth⟩ := c.image2_fields
  obtain ⟨unused3, payloadWidth⟩ := c.image34_fields
  obtain ⟨crc16, crcEn, xtal, clkOutEn, clkOutFreq⟩ := c.image9_fields
  rw [image_toList, hrx, htx]
  simp only [List.cons_append, List.nil_append, ofBytes]
  rw [if_pos ⟨unused1, unused2, unused2', unused3, trivial⟩]
  simp only [rx, tx, rxReduced, txPower, band, txAddrWidth, rxAddrWidth, payloadWidth, crc16, crcEn, xtal, clkOutEn,
    clkOutFreq, channel_of_image]

/-! ## The image from the fields -/

variable {c}

theorem image0_eq {b0 b1 : Byte} (channel : c.channel = b1.extractLsb' 0 1 ++ b0) : c.image0 = b0 := by
  simp only [image0, channel, BitVec.extractLsb'_append_eq_ite]
  simp

theorem image1_eq {b0 b1 : Byte} (unused : b1.extractLsb' 5 3 = 0#3) (rxReduced : c.rxReduced = b1.getLsbD 4)
    (txPower : c.txPower = b1.extractLsb' 2 2) (band : c.band = b1.getLsbD 1)
    (channel : c.channel = b1.extractLsb' 0 1 ++ b0) : c.image1 = b1 := by
  apply BitVec.eq_of_getLsbD_eq
  intro i hi
  simp only [image1, ← unused, rxReduced, txPower, band, channel, BitVec.getLsbD_append, BitVec.getLsbD_extractLsb',
    getLsbD_bit]
  interval_cases i <;> simp

theorem image2_eq {b : Byte} (unused7 : b.extractLsb' 7 1 = 0#1) (unused3 : b.extractLsb' 3 1 = 0#1)
    (txAddrWidth : c.txAddrWidth = b.extractLsb' 4 3) (rxAddrWidth : c.rxAddrWidth = b.extractLsb' 0 3) :
    c.image2 = b := by
  have bits : c.image2 = b.extractLsb' 7 1 ++ b.extractLsb' 4 3 ++ b.extractLsb' 3 1 ++ b.extractLsb' 0 3 := by
    rw [unused7, unused3, image2, txAddrWidth, rxAddrWidth]
  apply BitVec.eq_of_getLsbD_eq
  intro i hi
  simp only [bits, BitVec.getLsbD_append, BitVec.getLsbD_extractLsb']
  interval_cases i <;> simp

theorem image34_eq {b : Byte} (unused : b.extractLsb' 6 2 = 0#2) (payloadWidth : c.payloadWidth = b.extractLsb' 0 6) :
    c.image34 = b := by
  apply BitVec.eq_of_getLsbD_eq
  intro i hi
  simp only [image34, ← unused, payloadWidth, BitVec.getLsbD_append, BitVec.getLsbD_extractLsb']
  interval_cases i <;> simp

theorem image9_eq {b : Byte} (crc16 : c.crc16 = b.getLsbD 7) (crcEn : c.crcEn = b.getLsbD 6)
    (xtal : c.xtal = b.extractLsb' 3 3) (clkOutEn : c.clkOutEn = b.getLsbD 2)
    (clkOutFreq : c.clkOutFreq = b.extractLsb' 0 2) : c.image9 = b := by
  apply BitVec.eq_of_getLsbD_eq
  intro i hi
  simp only [image9, crc16, crcEn, xtal, clkOutEn, clkOutFreq, BitVec.getLsbD_append, BitVec.getLsbD_extractLsb',
    getLsbD_bit]
  interval_cases i <;> simp

/-- The record of an INIT operand has that operand as its image and transmit address (R77). -/
theorem image_of_ofBytes {l : List Byte} (h : ofBytes lsbFirst l = some c) :
    (c.image lsbFirst).toList ++ addrBytes lsbFirst c.txAddr = l := by
  unfold ofBytes at h
  split at h
  · next b0 b1 b2 b3 b4 b5 b6 b7 b8 b9 t0 t1 t2 t3 =>
    split at h
    · next hbits =>
      obtain ⟨unused1, unused7, unused3, unused34, rfl⟩ := hbits
      cases h
      rw [image_toList, addrBytes_addrOf, addrBytes_addrOf, image0_eq rfl, image1_eq unused1 rfl rfl rfl rfl,
        image2_eq unused7 unused3 rfl rfl, image34_eq unused34 rfl, image9_eq rfl rfl rfl rfl rfl]
      rfl
    · cases h
  · cases h

end RadioConfig

/-- Settles O48: the bits of each byte by the byte's own lemma, the receive address byte by byte in each order. -/
theorem imageLayout : Obligations.ImageLayout := by
  intro lsbFirst c
  have byte9 : (c.image lsbFirst)[9] = c.image9 := by cases lsbFirst <;> rfl
  refine ⟨c.image0_bits, c.image1_bits, c.image2_bits, c.image34_bits, c.image34_bits, fun i hi => ?_,
    byte9 ▸ c.image9_bits⟩
  cases lsbFirst <;> interval_cases i <;> rfl

end Sys2Proof
end

section
/-! Decode and encode agree (spec/30_encoding.md sections 2 to 4; spec/44_frame_codec.md). -/

namespace Sys2Proof

/-! ## The codec -/

/-- Decode16 gives an encoded frame back: the six fields are its first bytes, and the payload is the rest. -/
@[simp] theorem Frame.decode16_encode (f : Frame) : Frame.decode16 f.encode = f := rfl

/-- Settles O25: one law for each direction. -/
theorem codecRoundTrips : Obligations.CodecRoundTrips := ⟨Frame.decode16_encode, Frame.encode_decode16⟩

/-! ## The SPI command bytes -/

/-- What the five command bytes have to be (R70, R71), one clause for each pair that could be taken for one another. -/
theorem SpiCodes.wf_iff (c : SpiCodes) : c.wf = true ↔
    c.wConfig &&& 0x0F#8 = 0#8 ∧ c.rConfig &&& 0x0F#8 = 0#8 ∧ c.wConfig ≠ c.rConfig ∧
    (c.wTxPayload &&& 0xF0#8 ≠ c.wConfig ∧ c.wTxPayload &&& 0xF0#8 ≠ c.rConfig) ∧
    (c.wTxAddress &&& 0xF0#8 ≠ c.wConfig ∧ c.wTxAddress &&& 0xF0#8 ≠ c.rConfig) ∧
    (c.rRxPayload &&& 0xF0#8 ≠ c.wConfig ∧ c.rRxPayload &&& 0xF0#8 ≠ c.rConfig) ∧
    c.wTxPayload ≠ c.wTxAddress ∧ c.wTxPayload ≠ c.rRxPayload ∧ c.wTxAddress ≠ c.rRxPayload := by
  simp [SpiCodes.wf, and_assoc]

section
variable {p : Params} (hp : p.spi.wf = true)
include hp

theorem decodeSpi_wConfig (a : BitVec 4) (data : List Byte) :
    decodeSpi p (withStart p.spi.wConfig a :: data) = decodeWConfig (withStart p.spi.wConfig a) data := by
  obtain ⟨hw, -⟩ := p.spi.wf_iff.1 hp
  rw [decodeSpi, if_pos (withStart_and a hw)]

theorem decodeSpi_rConfig (a : BitVec 4) (data : List Byte) :
    decodeSpi p (withStart p.spi.rConfig a :: data) = decodeRConfig (withStart p.spi.rConfig a) data := by
  obtain ⟨-, hr, hwr, -⟩ := p.spi.wf_iff.1 hp
  rw [decodeSpi, withStart_and a hr, if_neg hwr.symm, if_pos rfl]

theorem decodeSpi_wTxPayload (data : List Byte) :
    decodeSpi p (p.spi.wTxPayload :: data) = decodeWTxPayload data := by
  obtain ⟨-, -, -, ⟨hw, hr⟩, -⟩ := p.spi.wf_iff.1 hp
  rw [decodeSpi, if_neg hw, if_neg hr, if_pos rfl]

theorem decodeSpi_wTxAddress (data : List Byte) :
    decodeSpi p (p.spi.wTxAddress :: data) = decodeWTxAddress p data := by
  obtain ⟨-, -, -, -, ⟨hw, hr⟩, -, hpa, -⟩ := p.spi.wf_iff.1 hp
  rw [decodeSpi, if_neg hw, if_neg hr, if_neg hpa.symm, if_pos rfl]

theorem decodeSpi_rRxPayload (data : List Byte) :
    decodeSpi p (p.spi.rRxPayload :: data) = decodeRRxPayload data := by
  obtain ⟨-, -, -, -, -, ⟨hw, hr⟩, -, hpr, har⟩ := p.spi.wf_iff.1 hp
  rw [decodeSpi, if_neg hw, if_neg hr, if_neg hpr.symm, if_neg har.symm, if_pos rfl]

theorem startOf_wConfig (a : BitVec 4) : startOf (withStart p.spi.wConfig a) = a := by
  obtain ⟨hw, -⟩ := p.spi.wf_iff.1 hp
  exact startOf_withStart a hw

theorem startOf_rConfig (a : BitVec 4) : startOf (withStart p.spi.rConfig a) = a := by
  obtain ⟨-, hr, -⟩ := p.spi.wf_iff.1 hp
  exact startOf_withStart a hr

end

/-! ## From an instruction to its bytes and back -/

theorem decodeInit_encode (p : Params) (cfg : RadioConfig) :
    decodeInit p ((cfg.image p.addrLsbFirst).toList ++ addrBytes p.addrLsbFirst cfg.txAddr) = .ok (.init cfg) := by
  simp [decodeInit, RadioConfig.ofBytes_image]

theorem decodeStartTx_encode (f : Frame) (budget : Byte) :
    decodeStartTx (f.encode.toList ++ [budget]) = .ok (.startTx f budget) := by
  have htake : (f.encode.toList ++ [budget]).take 16 = f.encode.toList := List.take_left' Vector.length_toList
  have hdrop : (f.encode.toList ++ [budget]).drop 16 = [budget] := List.drop_left' Vector.length_toList
  simp [decodeStartTx, htake, hdrop]

theorem decodeDecode_encode {bs : List Byte} (h : bs.length ≤ 255) :
    decodeDecode (BitVec.ofNat 8 bs.length :: bs) = .ok (.decodeBytes bs) := by
  have hlen : bs.length = (BitVec.ofNat 8 bs.length).toNat := by
    rw [BitVec.toNat_ofNat, Nat.mod_eq_of_lt (by omega)]
  rw [decodeDecode, if_pos hlen]

theorem decodeWTxAddress_encode (p : Params) (a : BitVec 32) :
    decodeWTxAddress p (addrBytes p.addrLsbFirst a) = .ok (.wTxAddress a) := by
  obtain ⟨b0, b1, b2, b3, hbytes, haddr⟩ := addrOf_addrBytes p.addrLsbFirst a
  rw [hbytes, decodeWTxAddress, haddr]

theorem decodeFrame_encode (c : FrameCommand) (b : FrameBody) : decodeFrame (frameBytes c b) = .ok (.ofFrame c b) := by
  simp [decodeFrame, frameBytes]

/-- Settles O3: the first byte selects the decoder of the row, at the SPI face because the five command bytes can be told
apart, and the row's decoder reads its operands back. -/
theorem decodeOfEncode : Obligations.DecodeOfEncode := by
  intro p i hp hi
  induction i using Machine.exec_cases with
  | hostInit cfg => exact decodeInit_encode p cfg
  | setMode m => simp [decode, Instr.port, encode, decodeHost, decodeSetMode]
  | startTx f b => exact decodeStartTx_encode f b
  | poll => rfl
  | encodeFrame f => simp [decode, Instr.port, encode, decodeHost, decodeEncode]
  | decodeBytes bs => exact decodeDecode_encode (by simpa [Instr.wf] using hi)
  | wConfig a img =>
    refine (decodeSpi_wConfig hp a _).trans ?_
    rw [decodeWConfig, exactly_toList, startOf_wConfig hp]
  | rConfig a =>
    refine (decodeSpi_rConfig hp a _).trans ?_
    rw [decodeRConfig, if_pos List.length_replicate, startOf_rConfig hp]
  | wTxPayload f =>
    refine (decodeSpi_wTxPayload hp _).trans ?_
    rw [decodeWTxPayload, exactly_toList]
  | wTxAddress a => exact (decodeSpi_wTxAddress hp _).trans (decodeWTxAddress_encode p a)
  | rRxPayload => exact decodeSpi_rRxPayload hp _
  | frame c b =>
    rw [port_ofFrame, encode_ofFrame]
    exact decodeFrame_encode c b

/-! ## From bytes to their instruction and back -/

/-- The instruction `i` is what a byte string at a face stands for: it is a well-formed instruction of that face, and its
encoding is the string, the two reads with their don't-care bytes apart (R71). -/
def StandsFor (p : Params) (port : Port) (bytes : List Byte) (i : Instr) : Prop :=
  i.wf = true ∧ i.port = port ∧ ((∀ a, i ≠ .rConfig a) → i ≠ .rRxPayload → encode p i = bytes)

section
variable {p : Params} {i : Instr} {operands : List Byte}

theorem decodeInit_ok (h : decodeInit p operands = .ok i) : StandsFor p .host (0x00#8 :: operands) i := by
  unfold decodeInit at h
  split at h
  · split at h <;> cases h
    next hcfg => exact ⟨rfl, rfl, fun _ _ => congrArg (_ :: ·) (RadioConfig.image_of_ofBytes _ hcfg)⟩
  · cases h

theorem decodeSetMode_ok (h : decodeSetMode operands = .ok i) : StandsFor p .host (0x01#8 :: operands) i := by
  unfold decodeSetMode at h
  split at h
  · split at h <;> cases h
    next hm => exact ⟨rfl, rfl, fun _ _ => by rw [encode, mode_code_of_ofCode hm]⟩
  · cases h

theorem decodeStartTx_ok (h : decodeStartTx operands = .ok i) : StandsFor p .host (0x02#8 :: operands) i := by
  unfold decodeStartTx at h
  split at h
  · next f budget hf hb =>
    cases h
    refine ⟨rfl, rfl, fun _ _ => ?_⟩
    rw [encode, Frame.encode_decode16, exactly_eq_some hf, ← hb, List.take_append_drop]
  · cases h

theorem decodePoll_ok (h : decodePoll operands = .ok i) : StandsFor p .host (0x03#8 :: operands) i := by
  unfold decodePoll at h
  split at h <;> cases h
  next hnil => exact ⟨rfl, rfl, fun _ _ => by rw [encode, List.isEmpty_iff.1 hnil]⟩

theorem decodeEncode_ok (h : decodeEncode operands = .ok i) : StandsFor p .host (0x04#8 :: operands) i := by
  unfold decodeEncode at h
  split at h <;> cases h
  next hf => exact ⟨rfl, rfl, fun _ _ => by rw [encode, Frame.encode_decode16, exactly_eq_some hf]⟩

theorem decodeDecode_ok (h : decodeDecode operands = .ok i) : StandsFor p .host (0x05#8 :: operands) i := by
  unfold decodeDecode at h
  split at h
  · cases h
  · next n bs =>
    split at h <;> cases h
    next hlen =>
    have hwf : bs.length ≤ 255 := by have := n.isLt; omega
    exact ⟨by simpa [Instr.wf] using hwf, rfl, fun _ _ => by rw [encode, hlen, BitVec.ofNat_toNat, BitVec.setWidth_eq]⟩

theorem decodeHost_ok {bytes : List Byte} (h : decodeHost p bytes = .ok i) : StandsFor p .host bytes i := by
  unfold decodeHost at h
  split at h
  · cases h
  · next op operands =>
    split at h
    · next hop => subst hop; exact decodeInit_ok h
    split at h
    · next hop => subst hop; exact decodeSetMode_ok h
    split at h
    · next hop => subst hop; exact decodeStartTx_ok h
    split at h
    · next hop => subst hop; exact decodePoll_ok h
    split at h
    · next hop => subst hop; exact decodeEncode_ok h
    split at h
    · next hop => subst hop; exact decodeDecode_ok h
    · cases h

variable {cmd : Byte} {data : List Byte}

theorem decodeWConfig_ok (hcmd : cmd &&& 0xF0#8 = p.spi.wConfig) (h : decodeWConfig cmd data = .ok i) :
    StandsFor p .spi (cmd :: data) i := by
  unfold decodeWConfig at h
  split at h <;> cases h
  next himg => exact ⟨rfl, rfl, fun _ _ => by rw [encode, ← hcmd, withStart_startOf, exactly_eq_some himg]⟩

theorem decodeRConfig_ok (h : decodeRConfig cmd data = .ok i) : StandsFor p .spi (cmd :: data) i := by
  unfold decodeRConfig at h
  split at h <;> cases h
  exact ⟨rfl, rfl, fun hr _ => absurd rfl (hr _)⟩

theorem decodeWTxPayload_ok (h : decodeWTxPayload data = .ok i) : StandsFor p .spi (p.spi.wTxPayload :: data) i := by
  unfold decodeWTxPayload at h
  split at h <;> cases h
  next hf => exact ⟨rfl, rfl, fun _ _ => by rw [encode, exactly_eq_some hf]⟩

theorem decodeWTxAddress_ok (h : decodeWTxAddress p data = .ok i) : StandsFor p .spi (p.spi.wTxAddress :: data) i := by
  unfold decodeWTxAddress at h
  split at h <;> cases h
  exact ⟨rfl, rfl, fun _ _ => by rw [encode, addrBytes_addrOf]⟩

theorem decodeRRxPayload_ok (h : decodeRRxPayload data = .ok i) : StandsFor p .spi (cmd :: data) i := by
  unfold decodeRRxPayload at h
  split at h <;> cases h
  exact ⟨rfl, rfl, fun _ hr => absurd rfl hr⟩

theorem decodeSpi_ok {bytes : List Byte} (h : decodeSpi p bytes = .ok i) : StandsFor p .spi bytes i := by
  unfold decodeSpi at h
  split at h
  · cases h
  · next cmd data =>
    split at h
    · next hcmd => exact decodeWConfig_ok hcmd h
    split at h
    · exact decodeRConfig_ok h
    split at h
    · next hcmd => subst hcmd; exact decodeWTxPayload_ok h
    split at h
    · next hcmd => subst hcmd; exact decodeWTxAddress_ok h
    split at h
    · exact decodeRRxPayload_ok h
    · cases h

end

/-- The row of a command code is well-formed. -/
@[simp] theorem wf_ofFrame (c : FrameCommand) (b : FrameBody) : (Instr.ofFrame c b).wf = true := by
  cases c <;> rfl

theorem decodeFrame_ok {p : Params} {bytes : List Byte} {i : Instr} (h : decodeFrame bytes = .ok i) :
    StandsFor p .frame bytes i := by
  unfold decodeFrame at h
  split at h
  · cases h
  · next b hb =>
    split at h <;> cases h
    next c hc =>
    refine ⟨wf_ofFrame _ _, port_ofFrame _ _, fun _ _ => ?_⟩
    rw [encode_ofFrame, frameBytes, frameCommand_code_of_ofCode hc, withCommand_body, Frame.encode_decode16,
      exactly_eq_some hb]

/-- Settles O4, face by face. -/
theorem encodeOfDecode : Obligations.EncodeOfDecode := by
  intro p port bytes i _ h
  cases port with
  | host => exact decodeHost_ok h
  | spi => exact decodeSpi_ok h
  | frame => exact decodeFrame_ok h

end Sys2Proof
end

section
/-! What the decoder turns away, and what a step does with the slot at the head of the inbox (spec/30_encoding.md section 4,
spec/60_exceptions.md sections 1, 6 and 9). -/

namespace Sys2Proof

/-- Settles O2: each byte string is written out, and the decoder evaluates on it. -/
theorem writtenWordsDecode : Obligations.WrittenWordsDecode := by
  refine ⟨?_, ?_, ?_, ?_, ?_, ?_, ?_⟩ <;> decide

/-! ## Rejections at the host's face -/

/-- An opcode above 0x05 is none of the six. -/
theorem decodeHost_noSuchOpcode (p : Params) {op : Byte} (rest : List Byte) (h : 0x06 ≤ op.toNat) :
    decodeHost p (op :: rest) = .error (.noSuchOpcode op) := by
  have hne (n : Nat) (hn : n < 6) : op ≠ BitVec.ofNat 8 n := by
    rintro rfl
    rw [BitVec.toNat_ofNat, Nat.mod_eq_of_lt (by omega)] at h
    omega
  simp only [decodeHost, hne 0 (by decide), hne 1 (by decide), hne 2 (by decide), hne 3 (by decide), hne 4 (by decide),
    hne 5 (by decide), if_false]

/-- A code above 4 selects no mode. -/
theorem mode_ofCode_eq_none {b : Byte} (h : 5 ≤ b.toNat) : Mode.ofCode b = none := by
  cases hm : Mode.ofCode b with
  | none => rfl
  | some m =>
    rw [← mode_code_of_ofCode hm] at h
    cases m <;> exact absurd h (by decide)

/-- A one-bit field that is 0 is a clear bit. -/
theorem getLsbD_of_extractLsb'_eq_zero {b : Byte} {i : Nat} (h : b.extractLsb' i 1 = 0#1) : b.getLsbD i = false := by
  simpa using congrArg (BitVec.getLsbD · 0) h

/-- An operand with an unused bit or AUTO_RETRAN set is the image of no record; bytes 3 and 4 are equal in an image, so a
bit of either counts. -/
theorem RadioConfig.ofBytes_unusedBit (lsbFirst : Bool) {b0 b1 b2 b3 b4 : Byte} (rest : List Byte)
    (h : b1.extractLsb' 5 3 ≠ 0 ∨ b2.getLsbD 7 = true ∨ b2.getLsbD 3 = true ∨ b3.extractLsb' 6 2 ≠ 0 ∨
      b4.extractLsb' 6 2 ≠ 0) :
    RadioConfig.ofBytes lsbFirst (b0 :: b1 :: b2 :: b3 :: b4 :: rest) = none := by
  unfold RadioConfig.ofBytes
  split
  · next heq =>
    cases heq
    refine if_neg ?_
    rintro ⟨h1, h27, h23, h3, rfl⟩
    obtain h | h | h | h | h := h
    · exact h h1
    · exact Bool.false_ne_true ((getLsbD_of_extractLsb'_eq_zero h27).symm.trans h)
    · exact Bool.false_ne_true ((getLsbD_of_extractLsb'_eq_zero h23).symm.trans h)
    · exact h h3
    · exact h h3
  · rfl

/-- Settles O5: opcodes, mode codes and INIT operands, one lemma for each. -/
theorem hostRejects : Obligations.HostRejects := by
  refine ⟨fun p op rest h => decodeHost_noSuchOpcode p rest h, fun p b h => ?mode,
    fun p b0 b1 b2 b3 b4 rest hlen h => ?init⟩
  case mode =>
    show decodeSetMode [b] = _
    simp only [decodeSetMode, mode_ofCode_eq_none h]
  case init =>
    show decodeInit p _ = _
    simp [decodeInit, hlen, RadioConfig.ofBytes_unusedBit _ rest h]

namespace Machine

/-! ## The step -/

section
variable {s : State} {c : Slot} {rest : List Slot} (hin : s.inbox = c :: rest)
include hin

theorem step_of_instr {i : Instr} (h : decode s.params c.port c.bytes = .ok i) :
    step s = exec i (s.sample c rest) := by
  simp only [step, State.fetch, hin, h]

theorem step_of_unlistedFrame {f : Frame} (h : decode s.params c.port c.bytes = .error (.unlistedFrame f)) :
    step s = .next ((s.sample c rest).carry f) := by
  simp only [step, State.fetch, hin, h, carryUnlisted]

theorem step_of_reject {why : Reject} (h : decode s.params c.port c.bytes = .error why)
    (hwhy : ∀ f, why ≠ .unlistedFrame f) : step s = .refused (.notACommand why) := by
  cases why with
  | unlistedFrame f => exact absurd rfl (hwhy f)
  | _ => simp only [step, State.fetch, hin, h]

end

theorem step_of_empty {s : State} (h : s.inbox = []) : step s = .next s := by
  simp only [step, State.fetch, h]

/-- Settles O6: the state the step runs the instruction in is `State.sample`. -/
theorem stepRunsTheDecodedInstruction : Obligations.StepRunsTheDecodedInstruction :=
  fun _ _ _ _ hin h => step_of_instr hin h

/-- Settles O7. -/
theorem stepWithoutAnInstruction : Obligations.StepWithoutAnInstruction :=
  ⟨fun _ => step_of_empty, fun _ _ _ _ hin h hwhy => step_of_reject hin h hwhy⟩

/-! ## The frame face -/

/-- A string of 16 bytes at the frame face is the row of its command code, or a frame that no row lists. -/
theorem decodeFrame_toList (b : Bytes 16) :
    (∃ c, decodeFrame b.toList = .ok (.ofFrame c (Frame.decode16 b).body) ∧ c.code = (Frame.decode16 b).command) ∨
    decodeFrame b.toList = .error (.unlistedFrame (Frame.decode16 b)) := by
  cases h : FrameCommand.ofCode (Frame.decode16 b).command with
  | some c => exact .inl ⟨c, by simp [decodeFrame, h], frameCommand_code_of_ofCode h⟩
  | none => exact .inr (by simp [decodeFrame, h])

/-- At the frame face a string of 16 bytes is carried, listed or not. -/
theorem step_of_frame {s : State} {c : Slot} {rest : List Slot} (hin : s.inbox = c :: rest) (hport : c.port = .frame)
    {b : Bytes 16} (hb : b.toList = c.bytes) : step s = .next ((s.sample c rest).carry (Frame.decode16 b)) := by
  have hdec : decode s.params c.port c.bytes = decodeFrame b.toList := by rw [hport, hb]; rfl
  obtain ⟨cmd, hok, hcode⟩ | hunlisted := decodeFrame_toList b
  · rw [step_of_instr hin (hdec.trans hok), exec_ofFrame, hcode, withCommand_body]
  · exact step_of_unlistedFrame hin (hdec.trans hunlisted)

/-- Settles O8: the frame answered is Decode16 of the string, whose fields are the string again. -/
theorem frameFaceCarriesEveryFrame : Obligations.FrameFaceCarriesEveryFrame := by
  intro s c rest hin hport hlen
  obtain ⟨b, hb⟩ := exactly_of_length hlen
  have hb := exactly_eq_some hb
  refine ⟨Frame.decode16 b, step_of_frame hin hport hb, ?_⟩
  rw [← Frame.encode_toList, Frame.encode_decode16, hb]

end Machine
end Sys2Proof
end

section
/-! The whole next state of each host command (spec/40_mode_control.md, spec/42_init.md, spec/43_transmit_receive.md). -/

namespace Sys2Proof.Machine

/-- Two states are equal when they agree in every field. -/
theorem State.ext {s t : State}
    (params : s.params = t.params) (life : s.life = t.life) (pend : s.pend = t.pend) (mode : s.mode = t.mode)
    (pwr : s.pwr = t.pwr) (ce : s.ce = t.ce) (txen : s.txen = t.txen) (cfg : s.cfg = t.cfg)
    (txbuf : s.txbuf = t.txbuf) (budget : s.budget = t.budget) (retx : s.retx = t.retx)
    (deadline : s.deadline = t.deadline) (out : s.out = t.out) (mem : s.mem = t.mem) (drIn : s.drIn = t.drIn)
    (amIn : s.amIn = t.amIn) (cdIn : s.cdIn = t.cdIn) (now : s.now = t.now) (inbox : s.inbox = t.inbox)
    (ret : s.ret = t.ret) : s = t := by
  cases s
  cases t
  simp_all

/-- The host's INIT is `execInit`. -/
theorem exec_init (cfg : RadioConfig) (s : State) : exec (.init cfg) s = execInit cfg s := rfl

/-! ## SETMODE -/

theorem pinPwr_eq (m : Mode) : pinPwr m = (m != .powerDown) := by cases m <;> rfl
theorem pinCe_eq (m : Mode) : pinCe m = (m == .receive || m == .transmit) := by cases m <;> rfl
theorem pinTxen_eq (m : Mode) : pinTxen m = (m == .transmit) := by cases m <;> rfl

/-- Settles O9: the pin table column by column. -/
theorem setModeResult : Obligations.SetModeResult := by
  intro m s
  rw [exec_setMode, ← pinPwr_eq, ← pinCe_eq, ← pinTxen_eq]
  rfl

/-! ## INIT -/

theorem mandatory_eq_false {b : Bound} (h : b.pwr = false ∨ b.ce = false ∨ b.txen = false) : b.mandatory = false := by
  obtain h | h | h := h <;> simp [Bound.mandatory, h]

/-- What INIT reads back is what the radio answers once OUT holds one event more. -/
theorem initAnswer_eq (s : State) (e : OutEvent) :
    s.initAnswer = State.answer { s with out := s.out ++ [e] } .config 0 10 :=
  State.answer_congr (s := s.applyMode .powerDown) (s' := { s with out := s.out ++ [e] }) rfl (by simp) .config 0 10

theorem initReadBack_of_bound {s : State} (h : s.params.bound.mandatory = true) :
    s.initReadBack = { s with
      mode := .powerDown, pwr := false, ce := false, txen := false
      out := s.out ++ [.pins (some false) (some false) (some false),
        .spiR s.params.spi.rConfig 10 s.initAnswer.toList] } := by
  obtain ⟨hpwr, hce, htxen⟩ := (mandatory_iff _).1 h
  apply State.ext <;>
    simp [State.initReadBack, State.initAnswer, State.configAnswer, State.pinsEvent, hpwr, hce, htxen, pinPwr, pinCe,
      pinTxen]

/-- Settles O11: INIT goes on from the state after the read-back, `initReadBack_of_bound`. -/
theorem initSucceeds : Obligations.InitSucceeds := by
  intro cfg s huninit hwf hpwr hce htxen rb hrb haccepts
  have hbound : s.params.bound.mandatory = true := (mandatory_iff _).2 ⟨hpwr, hce, htxen⟩
  obtain rfl : s.initAnswer = rb := hrb ▸ initAnswer_eq s _
  rw [exec_init, execInit_ok huninit hwf hbound haccepts, initReadBack_of_bound hbound]
  refine congrArg Host.Outcome.next ?_
  apply State.ext <;> simp [State.initFinish, State.pinsEvent, hpwr, hce, htxen, pinPwr, pinCe, pinTxen]

/-- Settles O13: the state after the read-back, with LIFE and the response. -/
theorem initReadBackFails : Obligations.InitReadBackFails := by
  intro cfg s huninit hwf hpwr hce htxen rb hrb hrejects
  have hbound : s.params.bound.mandatory = true := (mandatory_iff _).2 ⟨hpwr, hce, htxen⟩
  obtain rfl : s.initAnswer = rb := hrb ▸ initAnswer_eq s _
  rw [exec_init, execInit_mismatch huninit hwf hbound hrejects, initReadBack_of_bound hbound]
  rfl

/-- Settles O14. -/
theorem initMissingPin : Obligations.InitMissingPin := by
  intro cfg s huninit hwf hunbound
  rw [exec_init, execInit_missingPin huninit hwf (mandatory_eq_false hunbound)]
  rfl

/-! ## The lifecycle -/

theorem execInit_notUninit (cfg : RadioConfig) {s : State} (h : s.life ≠ .uninit) :
    execInit cfg s = .refused .initNotUninit := if_pos h

theorem execInit_notWellFormed {cfg : RadioConfig} {s : State} (h : s.life = .uninit) (hcfg : cfg.wf = false) :
    execInit cfg s = .refused .initConfigNotWellFormed := by
  simp [execInit, h, hcfg]

/-- A record that breaks one of the conditions of CfgWF that can fail (R21). -/
theorem cfg_wf_eq_false {cfg : RadioConfig}
    (h : cfg.payloadWidth ≠ 16 ∨ cfg.rxAddrWidth ≠ 4 ∨ cfg.txAddrWidth ≠ 4 ∨ 4 < cfg.xtal.toNat) : cfg.wf = false := by
  rw [Bool.eq_false_iff]
  intro hwf
  simp only [RadioConfig.wf, Bool.and_eq_true, beq_iff_eq, decide_eq_true_eq] at hwf
  obtain ⟨⟨⟨⟨hpayload, hrx⟩, htx⟩, -⟩, hxtal⟩ := hwf
  obtain h | h | h | h := h
  · exact h hpayload
  · exact h hrx
  · exact h htx
  · omega

theorem execStartTx_notReady (f : Frame) (b : Byte) {s : State} (h : s.life ≠ .ready) :
    execStartTx f b s = .refused .startTxNotReady := if_pos h

theorem execPoll_notReady {s : State} (h : s.life ≠ .ready) : execPoll s = .refused .pollNotReady := if_pos h

/-- Settles O15: one lemma for each refusal. -/
theorem lifecycleRefusals : Obligations.LifecycleRefusals :=
  ⟨fun cfg _ h => execInit_notUninit cfg h, fun _ _ h hcfg => execInit_notWellFormed h (cfg_wf_eq_false hcfg),
    fun f b _ h => execStartTx_notReady f b h, fun _ h => execPoll_notReady h⟩

/-! ## STARTTX -/

/-- Settles O16: STARTTX in Idle, and STARTTX that goes through Idle. -/
theorem startTxAccepted : Obligations.StartTxAccepted := by
  intro f b s hready hnone
  rw [exec_startTx, execStartTx_accepted hready hnone]
  refine congrArg Host.Outcome.next ?_
  by_cases hidle : s.mode = .idle
  · apply State.ext <;>
      simp [State.startTransmit, State.throughIdle, State.pinsEvent, pinPwr, pinCe, pinTxen, hidle]
  · apply State.ext <;>
      simp [State.startTransmit, State.throughIdle, State.pinsEvent, pinPwr, pinCe, pinTxen, hidle]

/-! ## POLL -/

theorem retxLess_toNat {s : State} (h : 1 ≤ s.retx.toNat) : s.retxLess.toNat = s.retx.toNat - 1 := by
  rw [State.retxLess, BitVec.toNat_sub_of_le (by simpa [BitVec.le_def] using h)]
  rfl

/-- With at least two transmissions left, one at least remains after the decrement. -/
theorem repeatsRemain_of_two_le {s : State} (h : 2 ≤ s.retx.toNat) : s.repeatsRemain = true := by
  rw [State.repeatsRemain, retxLess_toNat (by omega), decide_eq_true_eq]
  omega

section
variable {s : State}

theorem pollTxBusy_notSeen (h : s.dr = false) : s.pollTxBusy = s.pollIdle := if_pos h

theorem pollTxBusy_repeat (h : s.dr = true) (hretx : 2 ≤ s.retx.toNat) : s.pollTxBusy = s.pollRepeat := by
  simp [State.pollTxBusy, h, repeatsRemain_of_two_le hretx]

/-- The last of the transmissions: no further one remains. -/
theorem repeatsRemain_of_eq_one (h : s.retx = 1) : s.repeatsRemain = false := by
  simp [State.repeatsRemain, State.retxLess, h]

theorem pollTxBusy_turnAround (h : s.dr = true) (hretx : s.retx = 1) (hbudget : 0 ≤ s.budget.toInt) :
    s.pollTxBusy = s.pollTurnAround := by
  simp [State.pollTxBusy, h, repeatsRemain_of_eq_one hretx, replyExpected, hbudget]

theorem pollTxBusy_done (h : s.dr = true) (hretx : s.retx = 1) (hbudget : s.budget.toInt < 0) :
    s.pollTxBusy = s.pollDone := by
  simp [State.pollTxBusy, h, repeatsRemain_of_eq_one hretx, replyExpected, Int.not_le.2 hbudget]

theorem pollRxWait_seen (h : s.dr = true) : s.pollRxWait = s.pollReply := if_pos h

theorem pollRxWait_timeout (h : s.dr = false) (hnow : s.deadline ≤ s.now) : s.pollRxWait = s.pollTimeout := by
  simp [State.pollRxWait, h, State.deadlineReached, hnow]

theorem pollRxWait_early (h : s.dr = false) (hnow : s.now < s.deadline) : s.pollRxWait = s.pollIdle := by
  simp [State.pollRxWait, h, State.deadlineReached, hnow]

theorem pollNone_seen (hmode : s.mode = .receive) (h : s.dr = true) : s.pollNone = s.pollUnsolicited :=
  if_pos ⟨hmode, h⟩

theorem pollNone_idle (h : s.mode ≠ .receive ∨ s.dr = false) : s.pollNone = s.pollIdle := by
  refine if_neg ?_
  rintro ⟨hmode, hdr⟩
  obtain hother | hunseen := h
  · exact hother hmode
  · exact Bool.false_ne_true (hunseen.symm.trans hdr)

end

/-- Settles O18: arm T1. -/
theorem pollRepeats : Obligations.PollRepeats := by
  intro s hready hbusy hbound hin hretx
  have hdr : s.dr = true := (dr_eq_true s).2 ⟨hbound, hin⟩
  rw [exec_poll, execPoll_txBusy hready hbusy, pollTxBusy_repeat hdr hretx]
  refine congrArg Host.Outcome.next ?_
  apply State.ext <;> simp [State.pollRepeat, State.retxLess, State.pinsEvent, pinPwr, pinCe, pinTxen]

/-- Settles O19: arms T2 and T3, as the sign of the budget says. -/
theorem pollCompletesTheTransmission : Obligations.PollCompletesTheTransmission := by
  intro s hready hbusy hbound hin hretx
  have hdr : s.dr = true := (dr_eq_true s).2 ⟨hbound, hin⟩
  rw [exec_poll, execPoll_txBusy hready hbusy]
  constructor
  · intro hbudget
    rw [pollTxBusy_turnAround hdr hretx hbudget]
    refine congrArg Host.Outcome.next ?_
    apply State.ext <;> simp [State.pollTurnAround, State.retxLess, State.pinsEvent, pinPwr, pinCe, pinTxen, hretx]
  · intro hbudget
    rw [pollTxBusy_done hdr hretx hbudget]
    refine congrArg Host.Outcome.next ?_
    apply State.ext <;> simp [State.pollDone, State.retxLess, State.pinsEvent, pinPwr, pinCe, pinTxen, hretx]

/-- Settles O20: arms W1 and N1; the frame is Decode16 of the 16 bytes the radio answers. -/
theorem pollDeliversTheFrame : Obligations.PollDeliversTheFrame := by
  intro s hready hbound hin hpend
  have hdr : s.dr = true := (dr_eq_true s).2 ⟨hbound, hin⟩
  refine ⟨Frame.decode16 s.rxAnswer, ?_, ?_⟩
  · rw [← Frame.encode_toList, Frame.encode_decode16]
    rfl
  · rw [exec_poll]
    obtain hwait | ⟨hnone, hreceive⟩ := hpend
    · rw [execPoll_rxWait hready hwait, pollRxWait_seen hdr]
      rfl
    · rw [execPoll_none hready hnone, pollNone_seen hreceive hdr]
      refine congrArg Host.Outcome.next ?_
      apply State.ext <;> simp [State.pollUnsolicited, State.rxAnswer, hnone]

/-- Settles O21: arm W2. -/
theorem pollTimesOut : Obligations.PollTimesOut := by
  intro s hready hwait hin hnow
  rw [exec_poll, execPoll_rxWait hready hwait, pollRxWait_timeout ((dr_eq_false s).2 hin) hnow]
  rfl

/-- Settles O22: arms T0, W0 and N0. -/
theorem pollIdleChangesNothing : Obligations.PollIdleChangesNothing := by
  intro s hready harm
  rw [exec_poll]
  obtain ⟨hbusy, hin⟩ | ⟨hwait, hin, hnow⟩ | ⟨hnone, hin⟩ := harm
  · rw [execPoll_txBusy hready hbusy, pollTxBusy_notSeen ((dr_eq_false s).2 hin)]
    rfl
  · rw [execPoll_rxWait hready hwait, pollRxWait_early ((dr_eq_false s).2 hin) hnow]
    rfl
  · rw [execPoll_none hready hnone, pollNone_idle (hin.imp_right (dr_eq_false s).2)]
    rfl

/-! ## Wire frames -/

/-- Settles O26: each row is `Instr.ofFrame` of its command code, and the codec carries it as `exec_ofFrame` says. -/
theorem frameRowsAreCarried : Obligations.FrameRowsAreCarried := by
  intro b s
  exact ⟨exec_ofFrame .setVoltage b s, exec_ofFrame .setSpeed b s, exec_ofFrame .setTimer b s,
    exec_ofFrame .networkJoinRequest b s, exec_ofFrame .setSpeedReply b s, exec_ofFrame .networkJoinOpen b s,
    exec_ofFrame .fanSettings b s, exec_ofFrame .networkJoinAck b s, exec_ofFrame .queryNetwork b s,
    exec_ofFrame .queryDevice b s, exec_ofFrame .setVoltageReply b s⟩

end Sys2Proof.Machine
end

section
/-! The transactions and the radio's registers (spec/41_spi_transactions.md; spec/20_memory.md sections 1 to 5). -/

namespace Sys2Proof

/-- The four address bytes, each by its place in the address (R44). -/
theorem getElem_addrBytes (lsbFirst : Bool) (a : BitVec 32) {i : Nat} (hi : i < 4) :
    (addrBytes lsbFirst a)[i]'(by simpa using hi) =
      if lsbFirst then a.extractLsb' (8 * i) 8 else a.extractLsb' (8 * (3 - i)) 8 := by
  cases lsbFirst <;> interval_cases i <;> rfl

namespace Memory

/-! ## Strings of fixed length -/

theorem read_writeBytes_toList {n : Nat} (v : Bytes n) (m : Memory) (k : Nat) {i : Nat} (hi : i < n) :
    (m.writeBytes k v.toList).read (k + i) = some v[i] := by
  rw [read_writeBytes_inside _ _ _ _ (by simpa using hi), Vector.getElem_toList]

theorem read_writeBytes_toList_outside {n : Nat} (v : Bytes n) (m : Memory) {k j : Nat} (h : ¬ (k ≤ j ∧ j < k + n)) :
    (m.writeBytes k v.toList).read j = m.read j := by
  refine read_writeBytes_outside _ _ _ _ ?_
  rw [Vector.length_toList]
  omega

theorem read_writeBytes_addrBytes (lsbFirst : Bool) (a : BitVec 32) (m : Memory) (k : Nat) {i : Nat} (hi : i < 4) :
    (m.writeBytes k (addrBytes lsbFirst a)).read (k + i) =
      some (if lsbFirst then a.extractLsb' (8 * i) 8 else a.extractLsb' (8 * (3 - i)) 8) := by
  rw [read_writeBytes_inside _ _ _ _ (by simpa using hi), getElem_addrBytes lsbFirst a hi]

theorem read_writeBytes_addrBytes_outside (lsbFirst : Bool) (a : BitVec 32) (m : Memory) {k j : Nat}
    (h : ¬ (k ≤ j ∧ j < k + 4)) : (m.writeBytes k (addrBytes lsbFirst a)).read j = m.read j := by
  refine read_writeBytes_outside _ _ _ _ ?_
  rw [length_addrBytes]
  omega

/-- A payload register that nothing is listed for holds no known value (R30). -/
theorem unlisted_rxPl {i : Nat} (hi : i < 16) : unlisted (Space.rxPl.key 0 + i) = none := by
  have hconfig : ¬ (0x40 + 0 + i < 10) := by omega
  have htxAddr : Space.txAddr.owns (0x40 + 0 + i) = false := by
    rw [Bool.eq_false_iff, ne_eq, owns_iff]
    simp only [Space.base, Space.size]
    omega
  simp only [unlisted, Space.key, Space.base, if_neg hconfig, htxAddr, Bool.false_eq_true, if_false]

theorem read_forget_outside (m : Memory) {k n j : Nat} (h : ¬ (k ≤ j ∧ j < k + n)) :
    (m.forget k n).read j = m.read j := by
  rw [read_forget, if_neg h]

end Memory

namespace Machine

/-! ## The transactions as commands -/

theorem exec_wTxPayload (f : Bytes 16) (s : State) :
    exec (.wTxPayload f) s = .next ((s.writeTxPayload f).respond .nothing) := rfl

theorem exec_wTxAddress (a : BitVec 32) (s : State) :
    exec (.wTxAddress a) s = .next ((s.writeTxAddress a).respond .nothing) := rfl

/-- From start address 0 the command byte is the code alone. -/
theorem exec_wConfig_zero (img : Bytes 10) (s : State) : exec (.wConfig 0 img) s =
    .next ((s.memWrite s.params.spi.wConfig .config 0 img.toList).respond .nothing) :=
  (execWConfig_zero img s).trans (by simp)

@[inherit_doc exec_wConfig_zero]
theorem exec_rConfig_zero (s : State) : exec (.rConfig 0) s =
    .next ((s.memRead s.params.spi.rConfig .config 0 10).respond (.data (s.configAnswer 0).toList)) :=
  (execRConfig_zero s).trans (by simp)

theorem exec_rRxPayload (s : State) : exec .rRxPayload s = .next (s.readRxPayload.respond (.data s.rxAnswer.toList)) :=
  rfl

/-! ## Writes -/

/-- Settles O27: the memory of each write is `Memory.writeBytes` at byte 0 of its space. -/
theorem writeTransactionsStore : Obligations.WriteTransactionsStore := by
  refine ⟨fun img s => ⟨_, exec_wConfig_zero img s, ?_, ?_⟩, fun f s => ⟨_, exec_wTxPayload f s, ?_, ?_⟩,
    fun a s => ⟨_, exec_wTxAddress a s, ?_, ?_⟩⟩
  · exact fun i hi => Memory.read_writeBytes_toList img s.mem _ hi
  · exact fun k hk => Memory.read_writeBytes_toList_outside img s.mem hk
  · exact fun i hi => Memory.read_writeBytes_toList f s.mem _ hi
  · exact fun k hk => Memory.read_writeBytes_toList_outside f s.mem hk
  · exact fun i hi => Memory.read_writeBytes_addrBytes _ a s.mem _ hi
  · exact fun k hk => Memory.read_writeBytes_addrBytes_outside _ a s.mem hk

/-! ## Reads -/

/-- Where the radio holds a known byte it answers it (R50). -/
theorem getElem_answer {s : State} {sp : Space} {a n i : Nat} {b : Byte} (hi : i < n)
    (h : s.mem.read (sp.key a + i) = some b) : (s.answer sp a n)[i] = b := by
  rw [State.answer, getElem_gather, State.radioByte, h]
  rfl

/-- Settles O28: known bytes by `getElem_answer`, what R_RX_PAYLOAD leaves of RXPL by `Memory.read_forget`. -/
theorem readTransactionsAnswer : Obligations.ReadTransactionsAnswer := by
  refine ⟨fun s => ⟨s.configAnswer 0, exec_rConfig_zero s, fun i hi b hb => getElem_answer hi hb⟩,
    fun s => ⟨s.rxAnswer, _, exec_rRxPayload s, fun i hi b hb => getElem_answer hi hb, fun i hi => ?_, fun k hk => ?_⟩⟩
  · exact (Memory.read_forget s.mem _ _ _).trans ((if_pos (by omega)).trans (Memory.unlisted_rxPl hi))
  · exact Memory.read_forget_outside s.mem hk

/-- Settles O29: every byte of the answer is a byte that was just stored. -/
theorem configReadsBack : Obligations.ConfigReadsBack := by
  intro img s
  refine ⟨_, _, exec_wConfig_zero img s, exec_rConfig_zero _, ?_, rfl⟩
  have hanswer : State.configAnswer ((s.memWrite s.params.spi.wConfig .config 0 img.toList).respond .nothing) 0 = img :=
    Vector.ext fun i hi => getElem_answer hi (Memory.read_writeBytes_toList img s.mem _ hi)
  rw [State.respond_ret, hanswer]

/-- Settles O30: from another start address the ten bytes do not lie inside CONFIG. -/
theorem configStartAddressFaults : Obligations.ConfigStartAddressFaults := by
  intro a img s ha
  have hpast : ¬ Space.config.holds a.toNat 10 = true := fun h => ha ((config_holds_iff a).1 h)
  exact ⟨if_neg hpast, if_neg hpast⟩

/-! ## What INIT leaves in the radio -/

theorem initFinish_mem (cfg : RadioConfig) (s : State) : (s.initFinish cfg).mem =
    (s.mem.writeBytes (Space.config.key 0) (cfg.image s.params.addrLsbFirst).toList).writeBytes (Space.txAddr.key 0)
      (addrBytes s.params.addrLsbFirst cfg.txAddr) := rfl

theorem initFinish_read_outside (cfg : RadioConfig) (s : State) {k : Nat}
    (hconfig : ¬ (Space.config.key 0 ≤ k ∧ k < Space.config.key 0 + 10))
    (htxAddr : ¬ (Space.txAddr.key 0 ≤ k ∧ k < Space.txAddr.key 0 + 4)) :
    (s.initFinish cfg).mem.read k = s.mem.read k := by
  rw [initFinish_mem, Memory.read_writeBytes_addrBytes_outside _ _ _ htxAddr,
    Memory.read_writeBytes_toList_outside _ _ hconfig]

/-- An INIT that answers Ok is one whose read-back passed. -/
theorem execInit_next_ok {cfg : RadioConfig} {s t : State} (h : execInit cfg s = .next t) (hok : t.ret = .result .ok) :
    t = s.initReadBack.initFinish cfg := by
  obtain ⟨-, -, ⟨-, rfl⟩ | ⟨-, -, rfl⟩ | ⟨-, -, rfl⟩⟩ := execInit_next h
  · cases hok
  · cases hok
  · rfl

/-- Settles O12: TXADDR is written last, and CONFIG lies below it. -/
theorem initLoadsTheRadio : Obligations.InitLoadsTheRadio := by
  intro cfg s t h hok
  obtain rfl := execInit_next_ok h hok
  refine ⟨fun i hi => ?config, fun i hi => ?txAddr, fun k => initFinish_read_outside cfg s.initReadBack⟩
  case config =>
    rw [initFinish_mem, Memory.read_writeBytes_addrBytes_outside _ _ _ (by simp only [Space.key, Space.base]; omega)]
    have hkey : Space.config.key i = Space.config.key 0 + i := by simp [Space.key]
    rw [hkey]
    exact Memory.read_writeBytes_toList _ _ _ hi
  case txAddr => exact Memory.read_writeBytes_addrBytes _ _ _ _ hi

/-! ## The frame of memory -/

theorem startTransmit_mem (f : Frame) (b : Byte) (s : State) : (s.startTransmit f b).mem =
    s.mem.writeBytes (Space.txPl.key 0) f.encode.toList := by
  by_cases h : s.mode = .idle <;> simp [State.startTransmit, State.throughIdle, h]

/-- POLL leaves the radio's registers, or has read the frame from RXPL. -/
theorem execPoll_mem {s t : State} (h : execPoll s = .next t) :
    t.mem = s.mem ∨ t.mem = s.mem.forget (Space.rxPl.key 0) 16 := by
  obtain ⟨-, ⟨-, arm⟩ | ⟨-, arm⟩ | ⟨-, arm⟩⟩ := execPoll_next h
  · obtain ⟨-, rfl⟩ | ⟨-, -, rfl⟩ | ⟨-, -, -, rfl⟩ | ⟨-, -, -, rfl⟩ := arm <;> exact .inl rfl
  · obtain ⟨-, rfl⟩ | ⟨-, -, rfl⟩ | ⟨-, -, rfl⟩ := arm
    · exact .inr rfl
    · exact .inl rfl
    · exact .inl rfl
  · obtain ⟨-, -, rfl⟩ | ⟨-, rfl⟩ := arm
    · exact .inr rfl
    · exact .inl rfl

/-- Settles O32: a write or a read leaves what is outside its bytes; the other instructions leave the memory as it is. -/
theorem memoryFrame : Obligations.MemoryFrame := by
  intro i s t h k
  induction i using exec_cases with
  | hostInit cfg =>
    rintro ⟨hconfig, htxAddr⟩
    obtain ⟨-, -, ⟨-, rfl⟩ | ⟨-, -, rfl⟩ | ⟨-, -, rfl⟩⟩ := execInit_next h
    · rfl
    · rfl
    · exact initFinish_read_outside cfg s.initReadBack hconfig htxAddr
  | setMode m => cases execSetMode_next h; exact fun _ => rfl
  | startTx f b =>
    intro hk
    obtain ⟨-, ⟨-, rfl⟩ | ⟨-, rfl⟩⟩ := execStartTx_next h
    · rfl
    · rw [startTransmit_mem]
      exact Memory.read_writeBytes_toList_outside _ _ hk
  | poll =>
    intro hk
    obtain hmem | hmem := execPoll_mem h <;> rw [hmem]
    exact Memory.read_forget_outside _ hk
  | encodeFrame f => cases execEncodeFrame_next h; exact fun _ => rfl
  | decodeBytes bs => obtain ⟨-, rfl⟩ | ⟨_, -, rfl⟩ := execDecodeBytes_next h <;> exact fun _ => rfl
  | wConfig a img =>
    obtain ⟨-, rfl⟩ := execWConfig_next h
    exact fun hk => Memory.read_writeBytes_toList_outside _ _ hk
  | rConfig a => obtain ⟨-, rfl⟩ := execRConfig_next h; exact fun _ => rfl
  | wTxPayload f =>
    cases execWTxPayload_next h
    exact fun hk => Memory.read_writeBytes_toList_outside _ _ hk
  | wTxAddress a =>
    cases execWTxAddress_next h
    exact fun hk => Memory.read_writeBytes_addrBytes_outside _ _ _ hk
  | rRxPayload =>
    cases execRRxPayload_next h
    exact fun hk => Memory.read_forget_outside _ hk
  | frame c b => rw [exec_ofFrame] at h; cases h; exact fun _ => rfl

end Machine
end Sys2Proof
end

section
/-! What each instruction can change (spec/10_state.md sections 1 to 7): the fields a command may write, and of the others
that they stay. -/

namespace Sys2Proof.Machine

/-! ## The fields a command can change -/

/-- What INIT can change: neither TXBUF, BUDGET, RETX and DEADLINE nor the parameters and the inputs. -/
theorem execInit_frame {cfg : RadioConfig} {s t : State} (h : execInit cfg s = .next t) :
    t = { s with life := t.life, pend := t.pend, mode := t.mode, pwr := t.pwr, ce := t.ce, txen := t.txen, cfg := t.cfg,
                 out := t.out, mem := t.mem, ret := t.ret } := by
  obtain ⟨-, -, ⟨-, rfl⟩ | ⟨-, -, rfl⟩ | ⟨-, -, rfl⟩⟩ := execInit_next h <;> rfl

theorem execSetMode_frame {m : Mode} {s t : State} (h : execSetMode m s = .next t) :
    t = { s with mode := t.mode, pwr := t.pwr, ce := t.ce, txen := t.txen, out := t.out, ret := t.ret } := by
  cases execSetMode_next h
  rfl

theorem throughIdle_frame (s : State) : s.throughIdle =
    { s with mode := .idle, pwr := s.throughIdle.pwr, ce := s.throughIdle.ce, txen := s.throughIdle.txen,
             out := s.throughIdle.out } := by
  by_cases h : s.mode = .idle
  · rw [State.throughIdle, if_pos h, ← h]
  · rw [State.throughIdle, if_neg h]
    rfl

/-- What STARTTX can change: neither LIFE, CFG and DEADLINE nor the parameters and the inputs. -/
theorem execStartTx_frame {f : Frame} {b : Byte} {s t : State} (h : execStartTx f b s = .next t) :
    t = { s with txbuf := t.txbuf, budget := t.budget, retx := t.retx, pend := t.pend, mode := t.mode, pwr := t.pwr,
                 ce := t.ce, txen := t.txen, out := t.out, mem := t.mem, ret := t.ret } := by
  obtain ⟨-, ⟨-, rfl⟩ | ⟨-, rfl⟩⟩ := execStartTx_next h
  · rfl
  · by_cases hidle : s.mode = .idle <;> apply State.ext <;> simp [State.startTransmit, State.throughIdle, hidle]

/-- What POLL can change: neither LIFE, CFG, TXBUF and BUDGET nor the parameters and the inputs. -/
theorem execPoll_frame {s t : State} (h : execPoll s = .next t) :
    t = { s with retx := t.retx, deadline := t.deadline, pend := t.pend, mode := t.mode, pwr := t.pwr, ce := t.ce,
                 txen := t.txen, out := t.out, mem := t.mem, ret := t.ret } := by
  obtain ⟨-, ⟨-, arm⟩ | ⟨-, arm⟩ | ⟨-, arm⟩⟩ := execPoll_next h
  · obtain ⟨-, rfl⟩ | ⟨-, -, rfl⟩ | ⟨-, -, -, rfl⟩ | ⟨-, -, -, rfl⟩ := arm <;> rfl
  · obtain ⟨-, rfl⟩ | ⟨-, -, rfl⟩ | ⟨-, -, rfl⟩ := arm <;> rfl
  · obtain ⟨-, -, rfl⟩ | ⟨-, rfl⟩ := arm <;> rfl

/-- The instructions that drive nothing: ENCODE, DECODE, the transactions and the wire frames. -/
def Passive : Instr → Prop
  | .init _ | .setMode _ | .startTx _ _ | .poll => False
  | _ => True

theorem exec_passive_frame {i : Instr} {s t : State} (hi : Passive i) (h : exec i s = .next t) :
    t = { s with out := t.out, mem := t.mem, ret := t.ret } ∧ (i.port ≠ .spi → t.out = s.out) := by
  induction i using exec_cases with
  | hostInit cfg => exact hi.elim
  | setMode m => exact hi.elim
  | startTx f b => exact hi.elim
  | poll => exact hi.elim
  | encodeFrame f => cases execEncodeFrame_next h; exact ⟨rfl, fun _ => rfl⟩
  | decodeBytes bs => obtain ⟨-, rfl⟩ | ⟨_, -, rfl⟩ := execDecodeBytes_next h <;> exact ⟨rfl, fun _ => rfl⟩
  | wConfig a img => obtain ⟨-, rfl⟩ := execWConfig_next h; exact ⟨rfl, fun hspi => absurd rfl hspi⟩
  | rConfig a => obtain ⟨-, rfl⟩ := execRConfig_next h; exact ⟨rfl, fun hspi => absurd rfl hspi⟩
  | wTxPayload f => cases execWTxPayload_next h; exact ⟨rfl, fun hspi => absurd rfl hspi⟩
  | wTxAddress a => cases execWTxAddress_next h; exact ⟨rfl, fun hspi => absurd rfl hspi⟩
  | rRxPayload => cases execRRxPayload_next h; exact ⟨rfl, fun hspi => absurd rfl hspi⟩
  | frame c b => rw [exec_ofFrame] at h; cases h; exact ⟨rfl, fun _ => rfl⟩

/-- The case split of the instructions by what they drive: the four commands that drive the pins, and the rest. -/
theorem driving_cases {P : Instr → Prop} (hostInit : ∀ cfg, P (.init cfg)) (setMode : ∀ m, P (.setMode m))
    (startTx : ∀ f b, P (.startTx f b)) (poll : P .poll) (passive : ∀ i, Passive i → P i) (i : Instr) : P i := by
  cases i with
  | init cfg => exact hostInit cfg
  | setMode m => exact setMode m
  | startTx f b => exact startTx f b
  | poll => exact poll
  | _ => exact passive _ trivial

/-- Settles O31: a register stays where the command's frame leaves it out. -/
theorem registersHaveOwners : Obligations.RegistersHaveOwners := by
  intro i s t h
  induction i using driving_cases with
  | hostInit cfg =>
    rw [execInit_frame h]
    exact ⟨⟨rfl, rfl, rfl, rfl, rfl, rfl⟩, fun hi => absurd rfl (hi cfg), fun _ => ⟨rfl, rfl⟩, fun _ _ => rfl,
      fun _ => rfl, fun hi => absurd rfl (hi cfg), fun _ hi => absurd rfl (hi cfg)⟩
  | setMode m =>
    rw [execSetMode_frame h]
    exact ⟨⟨rfl, rfl, rfl, rfl, rfl, rfl⟩, fun _ => ⟨rfl, rfl⟩, fun _ => ⟨rfl, rfl⟩, fun _ _ => rfl, fun _ => rfl,
      fun _ _ _ => rfl, fun hi => absurd rfl (hi m)⟩
  | startTx f b =>
    rw [execStartTx_frame h]
    exact ⟨⟨rfl, rfl, rfl, rfl, rfl, rfl⟩, fun _ => ⟨rfl, rfl⟩, fun hi => absurd rfl (hi f b),
      fun hi => absurd rfl (hi f b), fun _ => rfl, fun _ hi => absurd rfl (hi f b), fun _ _ hi => absurd rfl (hi f b)⟩
  | poll =>
    rw [execPoll_frame h]
    exact ⟨⟨rfl, rfl, rfl, rfl, rfl, rfl⟩, fun _ => ⟨rfl, rfl⟩, fun _ => ⟨rfl, rfl⟩, fun _ hi => absurd rfl hi,
      fun hi => absurd rfl hi, fun _ _ hi => absurd rfl hi, fun _ _ _ hi => absurd rfl hi⟩
  | passive i hi =>
    obtain ⟨hframe, hout⟩ := exec_passive_frame hi h
    rw [hframe]
    exact ⟨⟨rfl, rfl, rfl, rfl, rfl, rfl⟩, fun _ => ⟨rfl, rfl⟩, fun _ => ⟨rfl, rfl⟩, fun _ _ => rfl, fun _ => rfl,
      fun _ _ _ => rfl, fun _ _ _ _ => ⟨rfl, rfl, rfl, rfl, hout⟩⟩

/-! ## LIFE, CFG and MODE -/

/-- INIT runs from Uninit only, so it is none of the instructions that run after it. -/
theorem ne_init_of_next {i : Instr} {s t : State} (hlife : s.life ≠ .uninit) (h : exec i s = .next t) :
    ∀ cfg, i ≠ .init cfg := by
  rintro cfg rfl
  exact hlife (execInit_next h).1

theorem exec_keeps_life_cfg {i : Instr} {s t : State} (hlife : s.life ≠ .uninit) (h : exec i s = .next t) :
    t.life = s.life ∧ t.cfg = s.cfg := by
  obtain ⟨-, howner, -⟩ := registersHaveOwners i s t h
  exact howner (ne_init_of_next hlife h)

/-- Settles O36: only INIT writes LIFE and CFG. -/
theorem lifeAndConfigAreFinal : Obligations.LifeAndConfigAreFinal := by
  intro s t hlife h
  obtain ⟨-, rfl⟩ | ⟨c, rest, -, ⟨i, -, hexec⟩ | ⟨f, -, rfl⟩⟩ := step_next h
  · exact ⟨rfl, rfl⟩
  · exact exec_keeps_life_cfg (s := s.sample c rest) hlife hexec
  · exact ⟨rfl, rfl⟩

theorem startTransmit_mode (f : Frame) (b : Byte) (s : State) : (s.startTransmit f b).mode = .transmit := rfl

theorem startTransmit_pend (f : Frame) (b : Byte) (s : State) : (s.startTransmit f b).pend = .txBusy := rfl

theorem startTransmit_retx (f : Frame) (b : Byte) (s : State) : (s.startTransmit f b).retx = s.params.txFrames := by
  simp only [State.startTransmit]
  rw [throughIdle_frame]
  rfl

theorem startTransmit_budget (f : Frame) (b : Byte) (s : State) : (s.startTransmit f b).budget = b := by
  simp only [State.startTransmit]
  rw [throughIdle_frame]
  rfl

/-- POLL leaves the mode, or goes on to Transmit, Receive or Idle (arms T1, T2, T3). -/
theorem execPoll_mode {s t : State} (h : execPoll s = .next t) :
    t.mode = s.mode ∨ t.mode = .idle ∨ t.mode = .receive ∨ t.mode = .transmit := by
  obtain ⟨-, ⟨-, arm⟩ | ⟨-, arm⟩ | ⟨-, arm⟩⟩ := execPoll_next h
  · obtain ⟨-, rfl⟩ | ⟨-, -, rfl⟩ | ⟨-, -, -, rfl⟩ | ⟨-, -, -, rfl⟩ := arm
    · exact .inl rfl
    · exact .inr (.inr (.inr rfl))
    · exact .inr (.inr (.inl rfl))
    · exact .inr (.inl rfl)
  · obtain ⟨-, rfl⟩ | ⟨-, -, rfl⟩ | ⟨-, -, rfl⟩ := arm <;> exact .inl rfl
  · obtain ⟨-, -, rfl⟩ | ⟨-, rfl⟩ := arm <;> exact .inl rfl

/-- Settles O37: STARTTX and POLL are the instructions left that write MODE. -/
theorem blockSetsNoPowerSaving : Obligations.BlockSetsNoPowerSaving := by
  intro i s t hready hset h
  induction i using driving_cases with
  | hostInit cfg =>
    obtain ⟨huninit, -⟩ := execInit_next h
    cases huninit.symm.trans hready
  | setMode m => exact absurd rfl (hset m)
  | startTx f b =>
    obtain ⟨-, ⟨-, rfl⟩ | ⟨-, rfl⟩⟩ := execStartTx_next h
    · exact .inl rfl
    · exact .inr (.inr (.inr (startTransmit_mode f b s)))
  | poll => exact execPoll_mode h
  | passive i hi =>
    obtain ⟨hframe, -⟩ := exec_passive_frame hi h
    exact .inl (by rw [hframe])

/-! ## OUT -/

/-- What POLL appends to OUT, arm by arm: nothing (T0, W0, W2, N0), a CE cycle (T1), one mode (T2, T3), a read (W1, N1). -/
theorem execPoll_out {s t : State} (h : execPoll s = .next t) :
    t.out = s.out ++ [] ∨ t.out = s.out ++ [s.pinsEvent .idle, s.pinsEvent .transmit] ∨
    (∃ m, t.out = s.out ++ [s.pinsEvent m]) ∨
    t.out = s.out ++ [.spiR s.params.spi.rRxPayload 16 s.rxAnswer.toList] := by
  obtain ⟨-, ⟨-, arm⟩ | ⟨-, arm⟩ | ⟨-, arm⟩⟩ := execPoll_next h
  · obtain ⟨-, rfl⟩ | ⟨-, -, rfl⟩ | ⟨-, -, -, rfl⟩ | ⟨-, -, -, rfl⟩ := arm
    · exact .inl (List.append_nil _).symm
    · exact .inr (.inl (List.append_assoc s.out [_] [_]))
    · exact .inr (.inr (.inl ⟨.receive, rfl⟩))
    · exact .inr (.inr (.inl ⟨.idle, rfl⟩))
  · obtain ⟨-, rfl⟩ | ⟨-, -, rfl⟩ | ⟨-, -, rfl⟩ := arm
    · exact .inr (.inr (.inr rfl))
    · exact .inl (List.append_nil _).symm
    · exact .inl (List.append_nil _).symm
  · obtain ⟨-, -, rfl⟩ | ⟨-, rfl⟩ := arm
    · exact .inr (.inr (.inr rfl))
    · exact .inl (List.append_nil _).symm

/-- What an accepted STARTTX appends to OUT: Idle unless already there, the load, Transmit. -/
theorem startTransmit_out (f : Frame) (b : Byte) (s : State) : (s.startTransmit f b).out =
    s.out ++ ((if s.mode = .idle then [] else [s.pinsEvent .idle]) ++
      [.spiW s.params.spi.wTxPayload f.encode.toList, s.pinsEvent .transmit]) := by
  by_cases h : s.mode = .idle <;> simp [State.startTransmit, State.throughIdle, h, State.pinsEvent]

theorem initReadBack_out (s : State) : s.initReadBack.out =
    s.out ++ [s.pinsEvent .powerDown, .spiR s.params.spi.rConfig 10 s.initAnswer.toList] := by
  simp [State.initReadBack, State.initAnswer, State.configAnswer]

theorem initFinish_out (cfg : RadioConfig) (s : State) : (s.initFinish cfg).out =
    s.out ++ [.spiW s.params.spi.wConfig (cfg.image s.params.addrLsbFirst).toList,
      .spiW s.params.spi.wTxAddress (addrBytes s.params.addrLsbFirst cfg.txAddr), s.pinsEvent .idle] := by
  simp [State.initFinish]

/-- What an INIT that answers Ok appends to OUT. -/
theorem init_out (cfg : RadioConfig) (s : State) : (s.initReadBack.initFinish cfg).out =
    s.out ++ ([s.pinsEvent .powerDown, .spiR s.params.spi.rConfig 10 s.initAnswer.toList] ++
      [.spiW s.params.spi.wConfig (cfg.image s.params.addrLsbFirst).toList,
        .spiW s.params.spi.wTxAddress (addrBytes s.params.addrLsbFirst cfg.txAddr), s.pinsEvent .idle]) := by
  rw [initFinish_out, initReadBack_out, List.append_assoc]
  rfl

/-- Every instruction appends to OUT, and takes nothing back. -/
theorem exec_out_grows {i : Instr} {s t : State} (h : exec i s = .next t) : s.out <+: t.out := by
  induction i using exec_cases with
  | hostInit cfg =>
    obtain ⟨-, -, ⟨-, rfl⟩ | ⟨-, -, rfl⟩ | ⟨-, -, rfl⟩⟩ := execInit_next h
    · exact ⟨[], List.append_nil _⟩
    · exact ⟨_, (initReadBack_out s).symm⟩
    · exact ⟨_, (init_out cfg s).symm⟩
  | setMode m => cases execSetMode_next h; exact ⟨_, rfl⟩
  | startTx f b =>
    obtain ⟨-, ⟨-, rfl⟩ | ⟨-, rfl⟩⟩ := execStartTx_next h
    · exact ⟨[], List.append_nil _⟩
    · exact ⟨_, (startTransmit_out f b s).symm⟩
  | poll => obtain hout | hout | ⟨m, hout⟩ | hout := execPoll_out h <;> exact ⟨_, hout.symm⟩
  | encodeFrame f => cases execEncodeFrame_next h; exact ⟨[], List.append_nil _⟩
  | decodeBytes bs => obtain ⟨-, rfl⟩ | ⟨_, -, rfl⟩ := execDecodeBytes_next h <;> exact ⟨[], List.append_nil _⟩
  | wConfig a img => obtain ⟨-, rfl⟩ := execWConfig_next h; exact ⟨_, rfl⟩
  | rConfig a => obtain ⟨-, rfl⟩ := execRConfig_next h; exact ⟨_, rfl⟩
  | wTxPayload f => cases execWTxPayload_next h; exact ⟨_, rfl⟩
  | wTxAddress a => cases execWTxAddress_next h; exact ⟨_, rfl⟩
  | rRxPayload => cases execRRxPayload_next h; exact ⟨_, rfl⟩
  | frame c b => rw [exec_ofFrame] at h; cases h; exact ⟨[], List.append_nil _⟩

/-- Settles O38. -/
theorem outputTraceOnlyGrows : Obligations.OutputTraceOnlyGrows := by
  intro s t h
  obtain ⟨-, rfl⟩ | ⟨c, rest, -, ⟨i, -, hexec⟩ | ⟨f, -, rfl⟩⟩ := step_next h
  · exact ⟨[], List.append_nil _⟩
  · exact exec_out_grows (s := s.sample c rest) hexec
  · exact ⟨[], List.append_nil _⟩

/-! ## The payload is loaded with CE low -/

/-- With CE bound, a Pins event sets the level CE is followed by. -/
theorem loadsWithCeLow_pinsEvent {s : State} (hce : s.params.bound.ce = true) (cmd : Byte) (ce : Bool) (m : Mode)
    (es : List OutEvent) :
    loadsWithCeLow cmd ce (s.pinsEvent m :: es) = loadsWithCeLow cmd (pinCe m) es := by
  simp [State.pinsEvent, loadsWithCeLow, hce]

/-- A Pins event on its own loads nothing. -/
theorem loadsWithCeLow_pinsEvent_last (s : State) (cmd : Byte) (ce : Bool) (m : Mode) :
    loadsWithCeLow cmd ce [s.pinsEvent m] = true := rfl

/-- With CE low every write is allowed. -/
theorem loadsWithCeLow_spiW_low (cmd w : Byte) (v : List Byte) (es : List OutEvent) :
    loadsWithCeLow cmd false (.spiW w v :: es) = loadsWithCeLow cmd false es := by
  simp [loadsWithCeLow]

/-- STARTTX loads the payload in Idle, where CE is low. -/
theorem startTransmit_loadsWithCeLow {s : State} (hce : s.params.bound.ce = true) (hpin : s.ce = pinCe s.mode)
    (cmd : Byte) (v : List Byte) :
    loadsWithCeLow cmd s.ce ((if s.mode = .idle then [] else [s.pinsEvent .idle]) ++
      [.spiW cmd v, s.pinsEvent .transmit]) = true := by
  by_cases hidle : s.mode = .idle
  · have hlow : s.ce = false := by rw [hpin, hidle]; rfl
    rw [if_pos hidle, hlow]
    exact (loadsWithCeLow_spiW_low _ _ _ _).trans (loadsWithCeLow_pinsEvent_last s _ _ _)
  · rw [if_neg hidle]
    exact (loadsWithCeLow_pinsEvent hce _ _ _ _).trans
      ((loadsWithCeLow_spiW_low _ _ _ _).trans (loadsWithCeLow_pinsEvent_last s _ _ _))

/-- INIT writes with CE low, having forced PowerDown. -/
theorem init_loadsWithCeLow {s : State} (hce : s.params.bound.ce = true) {cmd r w w' : Byte} {n : Nat}
    {d v v' : List Byte} {ce : Bool} :
    loadsWithCeLow cmd ce ([s.pinsEvent .powerDown, .spiR r n d] ++ [.spiW w v, .spiW w' v', s.pinsEvent .idle]) =
      true := by
  rw [List.cons_append, loadsWithCeLow_pinsEvent hce]
  simp [loadsWithCeLow, State.pinsEvent, pinCe]

/-- Settles O39: SETMODE and POLL write nothing; INIT and STARTTX write with CE low, bound since the mandatory pins are. -/
theorem payloadLoadedWithCeLow : Obligations.PayloadLoadedWithCeLow := by
  intro i s t hinv hport h
  induction i using driving_cases with
  | hostInit cfg =>
    obtain ⟨-, -, ⟨-, rfl⟩ | ⟨-, -, rfl⟩ | ⟨hbound, -, rfl⟩⟩ := execInit_next h
    · exact ⟨[], (List.append_nil _).symm, rfl⟩
    · exact ⟨_, initReadBack_out s, rfl⟩
    · obtain ⟨-, hce, -⟩ := (mandatory_iff _).1 hbound
      exact ⟨_, init_out cfg s, init_loadsWithCeLow hce⟩
  | setMode m => cases execSetMode_next h; exact ⟨_, rfl, loadsWithCeLow_pinsEvent_last s _ _ m⟩
  | startTx f b =>
    obtain ⟨hready, ⟨-, rfl⟩ | ⟨-, rfl⟩⟩ := execStartTx_next h
    · exact ⟨[], (List.append_nil _).symm, rfl⟩
    · obtain ⟨-, hce, -⟩ := (mandatory_iff _).1 (hinv.bound hready)
      obtain ⟨-, hpin, -⟩ := hinv.pins
      exact ⟨_, startTransmit_out f b s, startTransmit_loadsWithCeLow hce (hpin hce) _ _⟩
  | poll => obtain hout | hout | ⟨m, hout⟩ | hout := execPoll_out h <;> exact ⟨_, hout, rfl⟩
  | passive i hi =>
    obtain ⟨-, hout⟩ := exec_passive_frame hi h
    exact ⟨[], by rw [hout (by simp [hport]), List.append_nil], rfl⟩

/-! ## Error results -/

/-- The result Ok is no error. -/
theorem result_ok_ne_of_isError {r : Result} (herr : r.isError = true) : Response.result .ok ≠ .result r := by
  rintro ⟨⟩
  cases herr

/-- Settles O35: which results each instruction can answer, with the state it leaves. -/
theorem errorsArePrecise : Obligations.ErrorsArePrecise := by
  intro i s t r h hret herr
  induction i using exec_cases with
  | hostInit cfg =>
    obtain ⟨-, -, ⟨-, rfl⟩ | ⟨hbound, -, rfl⟩ | ⟨-, -, rfl⟩⟩ := execInit_next h
    · cases hret
      exact .inl ⟨rfl, ⟨cfg, rfl⟩, rfl⟩
    · cases hret
      rw [initReadBack_of_bound hbound]
      exact .inr (.inl ⟨rfl, ⟨cfg, rfl⟩, rfl, _, rfl⟩)
    · exact absurd hret (result_ok_ne_of_isError herr)
  | setMode m => cases execSetMode_next h; cases hret
  | startTx f b =>
    obtain ⟨-, ⟨-, rfl⟩ | ⟨-, rfl⟩⟩ := execStartTx_next h
    · cases hret
      exact .inr (.inr (.inl ⟨rfl, ⟨f, b, rfl⟩, rfl⟩))
    · exact absurd hret (result_ok_ne_of_isError herr)
  | poll =>
    obtain ⟨e, he⟩ := execPoll_ret_event h
    cases he.symm.trans hret
  | encodeFrame f => cases execEncodeFrame_next h; cases hret
  | decodeBytes bs =>
    obtain ⟨-, rfl⟩ | ⟨_, -, rfl⟩ := execDecodeBytes_next h
    · cases hret
      exact .inr (.inr (.inr ⟨rfl, ⟨bs, rfl⟩, rfl⟩))
    · cases hret
  | wConfig a img => obtain ⟨-, rfl⟩ := execWConfig_next h; cases hret
  | rConfig a => obtain ⟨-, rfl⟩ := execRConfig_next h; cases hret
  | wTxPayload f => cases execWTxPayload_next h; cases hret
  | wTxAddress a => cases execWTxAddress_next h; cases hret
  | rRxPayload => cases execRRxPayload_next h; cases hret
  | frame c b => rw [exec_ofFrame] at h; cases h; cases hret

/-! ## The inputs -/

section
variable (dr am cd : Bool) (now : Nat) (s : State)

theorem execInit_withInputs (cfg : RadioConfig) : execInit cfg (s.withInputs dr am cd now) =
    mapNext (State.withInputs dr am cd now) (execInit cfg s) := by
  simp only [execInit, apply_ite (mapNext _)]
  rfl

theorem execDecodeBytes_withInputs (bs : List Byte) : execDecodeBytes bs (s.withInputs dr am cd now) =
    mapNext (State.withInputs dr am cd now) (execDecodeBytes bs s) := by
  unfold execDecodeBytes
  cases exactly 16 bs <;> rfl

theorem startTransmit_withInputs (f : Frame) (b : Byte) :
    (s.withInputs dr am cd now).startTransmit f b = (s.startTransmit f b).withInputs dr am cd now := by
  by_cases hidle : s.mode = .idle <;> apply State.ext <;>
    simp [State.startTransmit, State.throughIdle, State.withInputs, State.pinsEvent, hidle]

theorem execStartTx_withInputs (f : Frame) (b : Byte) : execStartTx f b (s.withInputs dr am cd now) =
    mapNext (State.withInputs dr am cd now) (execStartTx f b s) := by
  simp only [execStartTx, apply_ite (mapNext _), startTransmit_withInputs]
  rfl

theorem execWConfig_withInputs (a : BitVec 4) (img : Bytes 10) : execWConfig a img (s.withInputs dr am cd now) =
    mapNext (State.withInputs dr am cd now) (execWConfig a img s) := by
  simp only [execWConfig, apply_ite (mapNext _)]
  rfl

theorem execRConfig_withInputs (a : BitVec 4) : execRConfig a (s.withInputs dr am cd now) =
    mapNext (State.withInputs dr am cd now) (execRConfig a s) := by
  simp only [execRConfig, apply_ite (mapNext _)]
  rfl

theorem pollTxBusy_withInputs :
    (s.withInputs s.drIn am cd s.now).pollTxBusy = s.pollTxBusy.withInputs s.drIn am cd s.now := by
  simp only [State.pollTxBusy, apply_ite (State.withInputs _ _ _ _)]
  rfl

theorem pollRxWait_withInputs :
    (s.withInputs s.drIn am cd s.now).pollRxWait = s.pollRxWait.withInputs s.drIn am cd s.now := by
  simp only [State.pollRxWait, apply_ite (State.withInputs _ _ _ _)]
  rfl

theorem pollNone_withInputs :
    (s.withInputs s.drIn am cd s.now).pollNone = s.pollNone.withInputs s.drIn am cd s.now := by
  simp only [State.pollNone, apply_ite (State.withInputs _ _ _ _)]
  rfl

theorem execPoll_withInputs : execPoll (s.withInputs s.drIn am cd s.now) =
    mapNext (State.withInputs s.drIn am cd s.now) (execPoll s) := by
  by_cases hready : s.life = .ready
  · cases hpend : s.pend with
    | txBusy =>
      rw [execPoll_txBusy hready hpend, execPoll_txBusy (s := s.withInputs s.drIn am cd s.now) hready hpend,
        pollTxBusy_withInputs]
      rfl
    | rxWait =>
      rw [execPoll_rxWait hready hpend, execPoll_rxWait (s := s.withInputs s.drIn am cd s.now) hready hpend,
        pollRxWait_withInputs]
      rfl
    | none =>
      rw [execPoll_none hready hpend, execPoll_none (s := s.withInputs s.drIn am cd s.now) hready hpend,
        pollNone_withInputs]
      rfl
  · rw [execPoll_notReady hready, execPoll_notReady (s := s.withInputs s.drIn am cd s.now) hready]
    rfl

end

/-- Settles O33: no meaning but POLL's reads an input, and POLL reads DR and NOW only. -/
theorem onlyPollSeesTheInputs : Obligations.OnlyPollSeesTheInputs := by
  intro i s dr am cd now
  refine ⟨fun hpoll => ?_, execPoll_withInputs am cd s⟩
  induction i using exec_cases with
  | hostInit cfg => exact execInit_withInputs dr am cd now s cfg
  | startTx f b => exact execStartTx_withInputs dr am cd now s f b
  | poll => exact absurd rfl hpoll
  | decodeBytes bs => exact execDecodeBytes_withInputs dr am cd now s bs
  | wConfig a img => exact execWConfig_withInputs dr am cd now s a img
  | rConfig a => exact execRConfig_withInputs dr am cd now s a
  | frame c b => rw [exec_ofFrame, exec_ofFrame]; rfl
  | _ => rfl

end Sys2Proof.Machine
end

section
/-! Reset, and the invariants every step keeps (spec/10_state.md sections 10 and 11; spec/70_reset_and_hazards.md section 1). -/

namespace Sys2Proof.Machine

/-! ## Reset -/

/-- Settles O1: the values of `State.create`, and what a key reads as that nothing is listed for. -/
theorem resetLeavesTheStatedValues : Obligations.ResetLeavesTheStatedValues :=
  fun _ => ⟨rfl, rfl, rfl, rfl, rfl, rfl, rfl, rfl, rfl⟩

/-- A new block meets the invariant beside a radio in canonical form: every pin is low, as PowerDown has it. -/
theorem create_inv {p : Params} {radio : Memory} (hp : p.wf = true) (hradio : radio.wf) : (State.create p radio).Inv where
  params := hp
  memory := hradio
  pins := ⟨fun _ => rfl, fun _ => rfl, fun _ => rfl⟩
  bound := nofun
  pendReady := fun h => absurd rfl h
  retx := nofun

/-- Settles O40: a new block beside a radio just powered on, whose memory is the empty list. -/
theorem invariantHoldsAtReset : Obligations.InvariantHoldsAtReset :=
  ⟨fun _ hp => create_inv hp Memory.wf_nil, create_inv (by decide) Memory.wf_nil⟩

/-- The invariant speaks of neither the inputs nor the inbox, so a reset block meets it as a new one does. -/
theorem resetBlock_inv {s : State} (h : s.Inv) : s.resetBlock.Inv :=
  have hnew := create_inv h.params h.memory
  { params := hnew.params, memory := hnew.memory, pins := hnew.pins, bound := hnew.bound, pendReady := hnew.pendReady,
    retx := hnew.retx }

/-- Settles O49: the fields are those of a new block or are kept, and `resetBlock_inv` is the last clause. -/
theorem resetKeepsTheRadio : Obligations.ResetKeepsTheRadio :=
  fun _ => ⟨rfl, rfl, rfl, rfl, rfl, rfl, rfl, fun _ => rfl, rfl, rfl, rfl, rfl, rfl, rfl, resetBlock_inv⟩

/-! ## The pins -/

/-- Each bound output pin is its column of the row of the mode (R13, R25 (a)). -/
def State.PinsFollowMode (s : State) : Prop :=
  (s.params.bound.pwr = true → s.pwr = pinPwr s.mode) ∧ (s.params.bound.ce = true → s.ce = pinCe s.mode) ∧
    (s.params.bound.txen = true → s.txen = pinTxen s.mode)

theorem startTransmit_pinsFollowMode (f : Frame) (b : Byte) (s : State) : (s.startTransmit f b).PinsFollowMode :=
  applyMode_row .transmit (State.throughIdle { s with txbuf := f.encode, budget := b, retx := s.params.txFrames })

theorem execPoll_pinsFollowMode {s t : State} (hs : s.PinsFollowMode) (h : execPoll s = .next t) : t.PinsFollowMode := by
  obtain ⟨-, ⟨-, arm⟩ | ⟨-, arm⟩ | ⟨-, arm⟩⟩ := execPoll_next h
  · obtain ⟨-, rfl⟩ | ⟨-, -, rfl⟩ | ⟨-, -, -, rfl⟩ | ⟨-, -, -, rfl⟩ := arm
    · exact hs
    · exact applyMode_row .transmit (s.applyMode .idle)
    · exact applyMode_row .receive s
    · exact applyMode_row .idle s
  · obtain ⟨-, rfl⟩ | ⟨-, -, rfl⟩ | ⟨-, -, rfl⟩ := arm <;> exact hs
  · obtain ⟨-, -, rfl⟩ | ⟨-, rfl⟩ := arm <;> exact hs

/-- Whatever writes MODE writes the pins from its row. -/
theorem exec_pinsFollowMode {i : Instr} {s t : State} (hs : s.PinsFollowMode) (h : exec i s = .next t) :
    t.PinsFollowMode := by
  induction i using driving_cases with
  | hostInit cfg =>
    obtain ⟨-, -, ⟨-, rfl⟩ | ⟨-, -, rfl⟩ | ⟨-, -, rfl⟩⟩ := execInit_next h
    · exact hs
    · exact applyMode_row .powerDown s
    · exact applyMode_row .idle s.initReadBack
  | setMode m => cases execSetMode_next h; exact applyMode_row m s
  | startTx f b =>
    obtain ⟨-, ⟨-, rfl⟩ | ⟨-, rfl⟩⟩ := execStartTx_next h
    · exact hs
    · exact startTransmit_pinsFollowMode f b s
  | poll => exact execPoll_pinsFollowMode hs h
  | passive i hi =>
    obtain ⟨hframe, -⟩ := exec_passive_frame hi h
    rw [hframe]
    exact hs

/-! ## The memory -/

/-- A string stored inside a space leaves the memory in its canonical form. -/
theorem writeBytes_wf {m : Memory} (sp : Space) {a : Nat} {v : List Byte} (hv : sp.holds a v.length = true) (h : m.wf) :
    (m.writeBytes (sp.key a) v).wf :=
  Memory.wf_writeBytes v (fun _ hi => Memory.mapped_key hv hi) h

theorem holds_toList (sp : Space) {n : Nat} (v : Bytes n) (h : n ≤ sp.size) : sp.holds 0 v.toList.length = true := by
  rw [Memory.holds_iff, Vector.length_toList]
  omega

theorem holds_addrBytes (lsbFirst : Bool) (a : BitVec 32) :
    Space.txAddr.holds 0 (addrBytes lsbFirst a).length = true := by
  rw [length_addrBytes]
  rfl

theorem execInit_wf {cfg : RadioConfig} {s t : State} (hs : s.mem.wf) (h : execInit cfg s = .next t) : t.mem.wf := by
  obtain ⟨-, -, ⟨-, rfl⟩ | ⟨-, -, rfl⟩ | ⟨-, -, rfl⟩⟩ := execInit_next h
  · exact hs
  · exact hs
  · exact writeBytes_wf .txAddr (holds_addrBytes _ _) (writeBytes_wf .config (holds_toList .config _ le_rfl) hs)

theorem execPoll_wf {s t : State} (hs : s.mem.wf) (h : execPoll s = .next t) : t.mem.wf := by
  obtain hmem | hmem := execPoll_mem h <;> rw [hmem]
  · exact hs
  · exact Memory.wf_forget _ _ hs

/-- The transactions write inside their spaces, so the memory keeps its canonical form. -/
theorem exec_wf {i : Instr} {s t : State} (hs : s.mem.wf) (h : exec i s = .next t) : t.mem.wf := by
  have holds16 (f : Bytes 16) := holds_toList .txPl f (by decide)
  induction i using exec_cases with
  | hostInit cfg => exact execInit_wf hs h
  | setMode m => cases execSetMode_next h; exact hs
  | startTx f b =>
    obtain ⟨-, ⟨-, rfl⟩ | ⟨-, rfl⟩⟩ := execStartTx_next h
    · exact hs
    · rw [startTransmit_mem]
      exact writeBytes_wf .txPl (holds16 f.encode) hs
  | poll => exact execPoll_wf hs h
  | encodeFrame f => cases execEncodeFrame_next h; exact hs
  | decodeBytes bs => obtain ⟨-, rfl⟩ | ⟨_, -, rfl⟩ := execDecodeBytes_next h <;> exact hs
  | wConfig a img =>
    obtain ⟨rfl, rfl⟩ := execWConfig_next h
    exact writeBytes_wf .config (holds_toList .config img le_rfl) hs
  | rConfig a => obtain ⟨-, rfl⟩ := execRConfig_next h; exact hs
  | wTxPayload f => cases execWTxPayload_next h; exact writeBytes_wf .txPl (holds16 f) hs
  | wTxAddress a => cases execWTxAddress_next h; exact writeBytes_wf .txAddr (holds_addrBytes _ a) hs
  | rRxPayload => cases execRRxPayload_next h; exact Memory.wf_forget _ _ hs
  | frame c b => rw [exec_ofFrame] at h; cases h; exact hs

/-! ## PEND and RETX -/

/-- Before INIT nothing is pending. -/
theorem State.Inv.pend_of_uninit {s : State} (hs : s.Inv) (h : s.life = .uninit) : s.pend = .none := by
  by_contra hpend
  cases h.symm.trans (hs.pendReady hpend)

theorem execInit_pend {cfg : RadioConfig} {s t : State} (hs : s.Inv) (h : execInit cfg s = .next t) :
    t.pend = .none := by
  obtain ⟨huninit, -, ⟨-, rfl⟩ | ⟨-, -, rfl⟩ | ⟨-, -, rfl⟩⟩ := execInit_next h
  · exact hs.pend_of_uninit huninit
  · exact hs.pend_of_uninit huninit
  · rfl

theorem exec_pendReady {i : Instr} {s t : State} (hs : s.Inv) (h : exec i s = .next t) (hpend : t.pend ≠ .none) :
    t.life = .ready := by
  induction i using driving_cases with
  | hostInit cfg => exact absurd (execInit_pend hs h) hpend
  | setMode m => cases execSetMode_next h; exact hs.pendReady hpend
  | startTx f b =>
    obtain ⟨hready, -⟩ := execStartTx_next h
    rw [execStartTx_frame h]
    exact hready
  | poll =>
    obtain ⟨hready, -⟩ := execPoll_next h
    rw [execPoll_frame h]
    exact hready
  | passive i hi =>
    obtain ⟨hframe, -⟩ := exec_passive_frame hi h
    rw [hframe] at hpend ⊢
    exact hs.pendReady hpend

/-- RETX while a transmission is pending (R25 (c)). -/
def State.RetxInRange (s : State) : Prop :=
  s.pend = .txBusy → 1 ≤ s.retx.toNat ∧ s.retx.toNat ≤ s.params.txFrames.toNat

theorem pollRepeat_retxInRange {s : State} (hs : s.RetxInRange) (hbusy : s.pend = .txBusy)
    (hrepeats : s.repeatsRemain = true) : s.pollRepeat.RetxInRange := by
  intro _
  obtain ⟨hlow, hhigh⟩ := hs hbusy
  have hpos : 0 < s.retxLess.toNat := by simpa [State.repeatsRemain] using hrepeats
  have hless : s.retxLess.toNat = s.retx.toNat - 1 := retxLess_toNat hlow
  show 1 ≤ s.retxLess.toNat ∧ s.retxLess.toNat ≤ s.params.txFrames.toNat
  omega

theorem execPoll_retxInRange {s t : State} (hs : s.RetxInRange) (h : execPoll s = .next t) : t.RetxInRange := by
  obtain ⟨-, ⟨hbusy, arm⟩ | ⟨hwait, arm⟩ | ⟨hnone, arm⟩⟩ := execPoll_next h
  · obtain ⟨-, rfl⟩ | ⟨-, hrepeats, rfl⟩ | ⟨-, -, -, rfl⟩ | ⟨-, -, -, rfl⟩ := arm
    · exact hs
    · exact pollRepeat_retxInRange hs hbusy hrepeats
    · exact nofun
    · exact nofun
  · obtain ⟨-, rfl⟩ | ⟨-, -, rfl⟩ | ⟨-, -, rfl⟩ := arm
    · exact nofun
    · exact nofun
    · exact hs
  · obtain ⟨-, -, rfl⟩ | ⟨-, rfl⟩ := arm <;> exact hs

theorem startTransmit_retxInRange {s : State} (hp : s.params.wf = true) (f : Frame) (b : Byte) :
    (s.startTransmit f b).RetxInRange := by
  intro _
  have hframes : 1 ≤ s.params.txFrames.toNat := by
    rw [Params.wf, Bool.and_eq_true, decide_eq_true_eq] at hp
    exact hp.1
  rw [startTransmit_retx, State.startTransmit_params]
  exact ⟨hframes, le_rfl⟩

theorem exec_retxInRange {i : Instr} {s t : State} (hs : s.Inv) (h : exec i s = .next t) : t.RetxInRange := by
  induction i using driving_cases with
  | hostInit cfg =>
    intro hbusy
    cases (execInit_pend hs h).symm.trans hbusy
  | setMode m => cases execSetMode_next h; exact hs.retx
  | startTx f b =>
    obtain ⟨-, ⟨-, rfl⟩ | ⟨-, rfl⟩⟩ := execStartTx_next h
    · exact hs.retx
    · exact startTransmit_retxInRange hs.params f b
  | poll => exact execPoll_retxInRange hs.retx h
  | passive i hi =>
    obtain ⟨hframe, -⟩ := exec_passive_frame hi h
    rw [hframe]
    exact hs.retx

/-! ## The invariant -/

theorem exec_keeps_inv {i : Instr} {s t : State} (hs : s.Inv) (h : exec i s = .next t) : t.Inv where
  params := (exec_params_life h).1 ▸ hs.params
  memory := exec_wf hs.memory h
  pins := exec_pinsFollowMode hs.pins h
  bound := exec_keeps_ready_bound hs.bound h
  pendReady := exec_pendReady hs h
  retx := exec_retxInRange hs h

/-- Sampling writes the inputs, and leaves the memory in its canonical form. -/
theorem sample_inv {s : State} (hs : s.Inv) (c : Slot) (rest : List Slot) : (s.sample c rest).Inv where
  params := hs.params
  memory := sample_wf c rest hs.memory
  pins := hs.pins
  bound := hs.bound
  pendReady := hs.pendReady
  retx := hs.retx

/-- A response is no part of the invariant. -/
theorem respond_inv {s : State} (hs : s.Inv) (r : Response) : (s.respond r).Inv where
  params := hs.params
  memory := hs.memory
  pins := hs.pins
  bound := hs.bound
  pendReady := hs.pendReady
  retx := hs.retx

/-- Settles O41: sampling keeps the invariant, and so does every instruction, part by part. -/
theorem everyStepKeepsTheInvariant : Obligations.EveryStepKeepsTheInvariant := by
  intro s t hs h
  obtain ⟨-, rfl⟩ | ⟨c, rest, -, ⟨i, -, hexec⟩ | ⟨f, -, rfl⟩⟩ := step_next h
  · exact hs
  · exact exec_keeps_inv (sample_inv hs c rest) hexec
  · exact respond_inv (sample_inv hs c rest) _

/-- Settles O43: in the state after the step the pins are the row of the mode, and no row asserts TXEN alone. -/
theorem transmitEnableImpliesPower : Obligations.TransmitEnableImpliesPower := by
  intro s t hs h hbound htxen
  obtain ⟨hpwr, hce, hx⟩ := (everyStepKeepsTheInvariant s t hs h).pins
  obtain ⟨bpwr, bce, btxen⟩ := (mandatory_iff _).1 hbound
  rw [hpwr bpwr, hce bce]
  exact pinTxen_implies t.mode (hx btxen ▸ htxen)

/-! ## The mode and what is pending -/

theorem execPoll_modeFollowsPend {s t : State} (hs : s.ModeFollowsPend) (h : execPoll s = .next t) :
    t.ModeFollowsPend := by
  obtain ⟨-, ⟨hbusy, arm⟩ | ⟨-, arm⟩ | ⟨-, arm⟩⟩ := execPoll_next h
  · obtain ⟨-, rfl⟩ | ⟨-, -, rfl⟩ | ⟨-, -, -, rfl⟩ | ⟨-, -, -, rfl⟩ := arm
    · exact hs
    · exact ⟨fun _ => rfl, fun hwait => nomatch hbusy.symm.trans hwait⟩
    · exact ⟨nofun, fun _ => rfl⟩
    · exact ⟨nofun, nofun⟩
  · obtain ⟨-, rfl⟩ | ⟨-, -, rfl⟩ | ⟨-, -, rfl⟩ := arm
    · exact ⟨nofun, nofun⟩
    · exact ⟨nofun, nofun⟩
    · exact hs
  · obtain ⟨-, -, rfl⟩ | ⟨-, rfl⟩ := arm <;> exact hs

/-- With nothing pending there is nothing for the mode to follow. -/
theorem modeFollowsPend_of_none {s : State} (h : s.pend = .none) : s.ModeFollowsPend :=
  ⟨fun hbusy => (nomatch h.symm.trans hbusy), fun hwait => (nomatch h.symm.trans hwait)⟩

theorem exec_modeFollowsPend {i : Instr} {s t : State} (hinv : s.Inv) (hs : s.ModeFollowsPend)
    (hduty : keepsSetModeDuty s i) (h : exec i s = .next t) : t.ModeFollowsPend := by
  induction i using driving_cases with
  | hostInit cfg => exact modeFollowsPend_of_none (execInit_pend hinv h)
  | setMode m => cases execSetMode_next h; exact modeFollowsPend_of_none hduty
  | startTx f b =>
    obtain ⟨-, ⟨-, rfl⟩ | ⟨-, rfl⟩⟩ := execStartTx_next h
    · exact hs
    · exact ⟨fun _ => startTransmit_mode f b s, fun hwait => nomatch (startTransmit_pend f b s).symm.trans hwait⟩
  | poll => exact execPoll_modeFollowsPend hs h
  | passive i hi =>
    obtain ⟨hframe, -⟩ := exec_passive_frame hi h
    rw [hframe]
    exact hs

/-- Settles O42: the host's duty is asked of the instruction the step runs. -/
theorem modeFollowsPend : Obligations.ModeFollowsPend := by
  intro s t hinv hs hduty h
  obtain ⟨-, rfl⟩ | ⟨c, rest, hin, ⟨i, hdec, hexec⟩ | ⟨f, -, rfl⟩⟩ := step_next h
  · exact hs
  · have hfetch : s.fetch = .instr i (s.sample c rest) := by simp only [State.fetch, hin, hdec]
    exact exec_modeFollowsPend (s := s.sample c rest) (sample_inv hinv c rest) hs (hduty i _ hfetch) hexec
  · exact hs

end Sys2Proof.Machine
end

section
/-! Runs of POLL (spec/43_transmit_receive.md; spec/70_reset_and_hazards.md section 3). -/

namespace Sys2Proof.Machine

theorem pollAll_cons {x : Bool × Nat} {xs : List (Bool × Nat)} {s u : State} (h : pollWith x.1 x.2 s = .next u) :
    pollAll (x :: xs) s = pollAll xs u := by
  simp only [pollAll, h]

theorem pollAll_singleton (dr : Bool) (now : Nat) (s : State) : pollAll [(dr, now)] s = pollWith dr now s := by
  cases h : pollWith dr now s <;> simp only [pollAll, h]

/-- A run that ends in a state takes its first POLL to a state. -/
theorem pollAll_cons_next {x : Bool × Nat} {xs : List (Bool × Nat)} {s t : State}
    (h : pollAll (x :: xs) s = .next t) : ∃ u, pollWith x.1 x.2 s = .next u ∧ pollAll xs u = .next t := by
  unfold pollAll at h
  cases hx : pollWith x.1 x.2 s with
  | next u => exact ⟨u, rfl, by simpa only [hx] using h⟩
  | fault r => simp only [hx] at h; cases h
  | refused r => simp only [hx] at h; cases h

theorem pollAll_append {l l' : List (Bool × Nat)} {s t : State} (h : pollAll l s = .next t) :
    pollAll (l ++ l') s = pollAll l' t := by
  induction l generalizing s with
  | nil => cases h; rfl
  | cons x xs ih =>
    obtain ⟨u, hx, hxs⟩ := pollAll_cons_next h
    exact (pollAll_cons hx).trans (ih hxs)

theorem pollWith_keeps_params {dr : Bool} {now : Nat} {s t : State} (h : pollWith dr now s = .next t) :
    t.params = s.params :=
  (execPoll_keeps_params_life (s := { s with drIn := dr, now := now }) h).1

theorem pollAll_keeps_params {l : List (Bool × Nat)} {s t : State} (h : pollAll l s = .next t) :
    t.params = s.params := by
  induction l generalizing s with
  | nil => cases h; rfl
  | cons x xs ih =>
    obtain ⟨u, hx, hxs⟩ := pollAll_cons_next h
    exact (ih hxs).trans (pollWith_keeps_params hx)

/-! ## POLLs that answer Ev.Idle -/

/-- A POLL with these inputs answers Ev.Idle and changes nothing else, whatever was answered before it. -/
def State.AnswersIdle (s : State) (x : Bool × Nat) : Prop :=
  ∀ r, exec .poll { s with drIn := x.1, now := x.2, ret := r } =
    .next { s with drIn := x.1, now := x.2, ret := .event .idle }

/-- A run of such POLLs changes only the inputs sampled and the response. -/
theorem pollAll_idle {s : State} {l : List (Bool × Nat)} (h : ∀ x ∈ l, s.AnswersIdle x) (d : Bool) (n : Nat)
    (r : Response) :
    ∃ d' n', pollAll l { s with drIn := d, now := n, ret := r } =
      .next { s with drIn := d', now := n', ret := if l.isEmpty then r else .event .idle } := by
  induction l generalizing d n r with
  | nil => exact ⟨d, n, rfl⟩
  | cons x xs ih =>
    obtain ⟨hx, hxs⟩ := List.forall_mem_cons.1 h
    obtain ⟨d', n', hrun⟩ := ih hxs x.1 x.2 (.event .idle)
    refine ⟨d', n', (pollAll_cons (hx r)).trans ?_⟩
    rw [hrun, ite_self]
    rfl

/-- Settles O46: before the deadline by `pollAll_idle`, then arm W2. -/
theorem replyWaitEndsAtTheDeadline : Obligations.ReplyWaitEndsAtTheDeadline := by
  intro s l dr now hready hwait hl hdr hnow
  have hidle : ∀ x ∈ l, s.AnswersIdle x := by
    intro x hx r
    obtain ⟨hunseen, hearly⟩ := hl x hx
    exact pollIdleChangesNothing { s with drIn := x.1, now := x.2, ret := r } hready
      (.inr (.inl ⟨hwait, hunseen, hearly⟩))
  obtain ⟨d, n, hrun⟩ := pollAll_idle hidle s.drIn s.now s.ret
  refine ⟨⟨d, n, hrun⟩, ?_⟩
  rw [pollAll_append (s := s) hrun, pollAll_singleton]
  exact pollTimesOut { s with drIn := dr, now := now, ret := if l.isEmpty then s.ret else .event .idle } hready hwait
    hdr hnow

/-- Settles O47: an unbound DR is never seen, so every POLL is arm T0. -/
theorem unboundDrHangs : Obligations.UnboundDrHangs := by
  intro s l hready hbusy hunbound
  have hidle : ∀ x ∈ l, s.AnswersIdle x := fun x _ r =>
    pollIdleChangesNothing { s with drIn := x.1, now := x.2, ret := r } hready (.inl ⟨hbusy, .inl hunbound⟩)
  have hpend : s.pend ≠ .none := by simp [hbusy]
  obtain ⟨d, n, hrun⟩ := pollAll_idle hidle s.drIn s.now s.ret
  exact ⟨_, hrun, hbusy, rfl, rfl, rfl, fun f b => execStartTx_busy
    (s := { s with drIn := d, now := n, ret := if l.isEmpty then s.ret else .event .idle }) hready hpend⟩

/-! ## POLLs that count the transmissions -/

/-- The two Pins events of a CE cycle (R125). -/
def State.ceCycle (s : State) : List OutEvent := [s.pinsEvent .idle, s.pinsEvent .transmit]

theorem pollWith_notSeen {s : State} (hready : s.life = .ready) (hbusy : s.pend = .txBusy) (now : Nat) :
    pollWith false now s = .next (State.pollIdle { s with drIn := false, now := now }) :=
  pollIdleChangesNothing { s with drIn := false, now := now } hready (.inl ⟨hbusy, .inr rfl⟩)

theorem pollWith_repeat {s : State} (hready : s.life = .ready) (hbusy : s.pend = .txBusy)
    (hbound : s.params.bound.dr = true) (hretx : 2 ≤ s.retx.toNat) (now : Nat) :
    pollWith true now s = .next (State.pollRepeat { s with drIn := true, now := now }) :=
  (execPoll_txBusy (s := { s with drIn := true, now := now }) hready hbusy).trans
    (congrArg Host.Outcome.next (pollTxBusy_repeat ((dr_eq_true _).2 ⟨hbound, rfl⟩) hretx))

theorem pollRepeat_out (s : State) : s.pollRepeat.out = s.out ++ s.ceCycle := by
  simp [State.pollRepeat, State.ceCycle, State.pinsEvent]

/-- Settles O44, by induction on the POLLs: one that sees DR is arm T1, since RETX is at least 2, one that does not is arm
T0. -/
theorem pollsCountTransmissions : Obligations.PollsCountTransmissions := by
  intro s l hready hbusy hbound hcount
  induction l generalizing s with
  | nil => exact ⟨s, rfl, hready, hbusy, rfl, rfl, rfl, (List.append_nil _).symm⟩
  | cons x xs ih =>
    obtain ⟨dr, now⟩ := x
    cases dr with
    | false =>
      have hxs : xs.countP (·.1) < s.retx.toNat := by simpa using hcount
      obtain ⟨t, hrun, ht⟩ := ih (State.pollIdle { s with drIn := false, now := now }) hready hbusy hbound hxs
      refine ⟨t, (pollAll_cons (pollWith_notSeen hready hbusy now)).trans hrun, ?_⟩
      rw [List.countP_cons_of_neg (by simp)]
      exact ht
    | true =>
      have hxs : xs.countP (·.1) + 1 < s.retx.toNat := by simpa using hcount
      have hless : s.retxLess.toNat = s.retx.toNat - 1 := retxLess_toNat (by omega)
      obtain ⟨t, hrun, hlife, hpend, hbudget, htxbuf, hretx, hout⟩ :=
        ih (State.pollRepeat { s with drIn := true, now := now }) hready hbusy hbound (by
          show _ < s.retxLess.toNat
          omega)
      refine ⟨t, (pollAll_cons (pollWith_repeat hready hbusy hbound (by omega) now)).trans hrun, hlife, hpend, hbudget,
        htxbuf, ?_, ?_⟩
      · rw [List.countP_cons_of_pos rfl, hretx]
        show s.retxLess.toNat - _ = _
        omega
      · rw [List.countP_cons_of_pos rfl, hout, pollRepeat_out, List.replicate_succ, List.flatten_cons,
          ← List.append_assoc]
        rfl

/-! ## The whole transmission -/

/-- The POLL that sees DR for the last transmission (arms T2, T3): TransmitComplete, then Receive with the reply wait, or
Idle with nothing pending. -/
theorem pollWith_last {s : State} (hready : s.life = .ready) (hbusy : s.pend = .txBusy)
    (hbound : s.params.bound.dr = true) (hretx : s.retx = 1) (now : Nat) :
    ∃ t, pollWith true now s = .next t ∧ t.ret = .event .transmitComplete ∧ t.retx = 0 ∧
      t.out = s.out ++ [s.pinsEvent (if 0 ≤ s.budget.toInt then .receive else .idle)] ∧
      if 0 ≤ s.budget.toInt then t.pend = .rxWait ∧ t.mode = .receive ∧ t.deadline = now + s.params.tReply
      else t.pend = .none ∧ t.mode = .idle := by
  obtain ⟨hreply, hnone⟩ :=
    pollCompletesTheTransmission { s with drIn := true, now := now } hready hbusy hbound rfl hretx
  by_cases hbudget : 0 ≤ s.budget.toInt
  · simp only [if_pos hbudget]
    exact ⟨_, hreply hbudget, rfl, rfl, rfl, rfl, rfl, rfl⟩
  · simp only [if_neg hbudget]
    exact ⟨_, hnone (Int.not_le.1 hbudget), rfl, rfl, rfl, rfl, rfl⟩

/-- Settles O45: STARTTX by `startTransmit_out`, the repeats by `pollsCountTransmissions`, the last POLL by
`pollWith_last`. -/
theorem startTxDrivesTransmitTxFramesTimes : Obligations.StartTxDrivesTransmitTxFramesTimes := by
  intro f b s l now hready hnone hbound hcount
  have hparams : (s.startTransmit f b).params = s.params := State.startTransmit_params f b s
  have hretx : (s.startTransmit f b).retx.toNat = s.params.txFrames.toNat := by rw [startTransmit_retx]
  obtain ⟨v, hrun, hvready, hvbusy, hvbudget, -, hvretx, hvout⟩ := pollsCountTransmissions (s.startTransmit f b) l
    ((State.startTransmit_life f b s).trans hready) (startTransmit_pend f b s) (by rw [hparams]; exact hbound)
    (by omega)
  have hvparams : v.params = s.params := (pollAll_keeps_params hrun).trans hparams
  have hvone : v.retx = 1 := by
    apply BitVec.eq_of_toNat_eq
    show v.retx.toNat = 1
    omega
  obtain ⟨t, hlast, hret, htretx, hout, hend⟩ :=
    pollWith_last hvready hvbusy (by rw [hvparams]; exact hbound) hvone now
  rw [hvbudget, startTransmit_budget] at hout hend
  rw [hvparams] at hend
  refine ⟨_, t, execStartTx_accepted hready hnone, ?run, hret, htretx, ?out, hend⟩
  case run => rw [pollAll_append hrun, pollAll_singleton, hlast]
  case out =>
    have hcountP : s.params.txFrames.toNat - 1 = l.countP (·.1) := by omega
    rw [hout, hvout, startTransmit_out, State.pinsEvent_congr hvparams, State.pinsEvent_congr hparams,
      State.pinsEvent_congr hparams, hcountP]
    simp only [List.append_assoc]

end Sys2Proof.Machine
end
